-- ==== Sys2Proof/Word.lean ====
section
/-! DEFINITION. The byte, the one machine word of the block (`00_scope.md` R6: "A *byte* is an unsigned
8-bit value 0..255"). The block has no wider machine word (`10_state.md` R22). -/

namespace Sys2Proof

/-- An unsigned 8-bit value (`00_scope.md` R6). -/
abbrev Byte := BitVec 8

/-- A byte sequence, indexed from 0 (`00_scope.md` R6). -/
abbrev Bytes := List Byte

end Sys2Proof
end

