-- ==== Sys2Proof/Config.lean ====
section
/-! DEFINITION. What an implementation fixes, as constants without a value.

`TICK_HZ` is the one OPEN parameter of the spec (`00_scope.md` R5, `92_eei_decisions.md` D7): "a positive integer
the model takes as an argument". -/

namespace Sys2Proof.Config

/-- A free natural, one less than `TICK_HZ`; it has no value, so a claim holds for every tick frequency (log 1). -/
opaque tickHzLessOne : Nat

/-- `TICK_HZ`, the frequency of the block's clock in ticks per second, a positive integer (`00_scope.md` R5; log 1). -/
def tickHz : Nat := tickHzLessOne + 1

/-- A free natural for the host software alone (`91_not_in_source.md` N9): where a bitmap of width `bw` stands
in a panel of width `w` when it is narrower; the source does not say (log 17). -/
opaque padColumn (bw w : Nat) : Nat

end Sys2Proof.Config
end

