-- ==== Sys2Proof/Syntax.lean ====
section
/-! DEFINITION. The instructions: one constructor per row of `spec/opcode_table.json`, and the host port's signals.

The block has no program of its own. Its rows are the four operations of the host port
(`43_host_operations.md` R141 to R144, format HOSTOP) and the wire frame it emits (`30_encoding.md` R60, format WIRE). -/

namespace Sys2Proof

/-- The rows of the opcode table with their operands (`30_encoding.md` R70, R71: every operand is the unsigned value
of its signal). -/
inductive Instr where
  /-- CONFIGURE, `op = 00`: the panel configuration (`43_host_operations.md` R141). -/
  | configure (addr : BitVec 8) (h w : BitVec 16) (baud margin : BitVec 32)
  /-- SETPIX, `op = 01`: write one cell, `v` true meaning lit (R142). -/
  | setpix (row col : BitVec 16) (v : Bool)
  /-- GETPIX, `op = 10`: read one cell (R143). -/
  | getpix (row col : BitVec 16)
  /-- SEND, `op = 11`: pack, frame, pace and write the frame buffer (R144). -/
  | send
  /-- FRAME: the wire frame that carries an address and a payload (`30_encoding.md` R60). The address is given as
  a byte, so that an address above 15 can be presented and is refused (`41_packet_framer.md` R90). -/
  | frame (addr : BitVec 8) (payload : Bytes)
  deriving DecidableEq, Repr

/-- The signals of one transaction at the host port, "all sampled together when the operation is accepted"
(`30_encoding.md` R70). -/
structure PortSignals where
  op     : BitVec 2
  addr   : BitVec 8
  h      : BitVec 16
  w      : BitVec 16
  baud   : BitVec 32
  margin : BitVec 32
  row    : BitVec 16
  col    : BitVec 16
  v      : Bool
  deriving DecidableEq, Repr

/-- The two ports whose encodings the spec gives: the host port carries operations in (`30_encoding.md` R70), the
byte-channel port carries frames out (R73). -/
inductive Port where
  | host
  | wire
  deriving DecidableEq, Repr

/-- The port an instruction belongs to: the "format" of its row, HOSTOP or WIRE. -/
def Instr.port : Instr → Port
  | .configure _ _ _ _ _ => .host
  | .setpix _ _ _ => .host
  | .getpix _ _ => .host
  | .send => .host
  | .frame _ _ => .wire

end Sys2Proof
end

