-- ==== Sys2Proof/Machine/State.lean ====
section
/-! DEFINITION. The whole state of the block (`10_state.md` R10), the observation bookkeeping the spec names (R25), the
environment's choices held as data, the reasons a step can stop, and the state after reset (R27). -/

namespace Sys2Proof.Machine

/-- `MODE` (`10_state.md` R11); codes in `Mode.code` (log 14). -/
inductive Mode where
  | unconf
  | idle
  | tx
  | flush
  | fault
  deriving DecidableEq, Repr

/-- `ERR` (`10_state.md` R18); codes in `ErrCode.code`. -/
inductive ErrCode where
  | none
  | configuration
  | channel
  deriving DecidableEq, Repr

/-- `RESP` (`10_state.md` R20); codes in `Resp.code`. -/
inductive Resp where
  | ok
  | refused
  | configError
  | channelError
  deriving DecidableEq, Repr

/-- The byte channel's answer to one `ChWrite` or `ChFlush` (`20_memory.md` R50). -/
inductive Answer where
  | ok
  | err
  deriving DecidableEq, Repr

/-- The events of `TRACE`, each stamped with `NOW` (`20_memory.md` R54). -/
inductive TraceEvent where
  | start (t : Nat)
  | byte (b : Byte) (t : Nat)
  | writeFail (b : Byte) (t : Nat)
  | flush (t : Nat)
  | flushFail (t : Nat)
  deriving DecidableEq, Repr

/-- Whose turn it is to move (`00_scope.md` R8: "Each step belongs to one agent"; log 2). -/
inductive Turn where
  /-- The host issues its next operation, if the port is free. -/
  | host
  /-- The sequencer takes its enabled step, if any: START, TXBYTE or TXFLUSH. -/
  | sequencer
  /-- One period of the clock: TICK. -/
  | clock
  /-- The reset input is asserted: RESET. -/
  | reset
  deriving DecidableEq, Repr

/-- The frame buffer as data: the lit cells, as pairs of a cell key and the bit 1, in rising order of the key (log 12). -/
abbrev Memory := List (Nat × Bool)

/-- What a cell that is not listed reads as: unlit (`10_state.md` R14: a successful CONFIGURE creates "exactly `H*W`
cells, all 0"). -/
def Memory.unlisted : Bool := false

/-- The canonical form: keys strictly rising, and no entry equal to what an unlisted cell reads as. -/
abbrev Memory.wf (m : Memory) : Prop :=
  m.Pairwise (fun a b => a.1 < b.1) ∧ ∀ e ∈ m, e.2 ≠ Memory.unlisted

/-- The state of the block (`10_state.md` R10), the bookkeeping of R25, and the environment as data. -/
@[ext]
structure State where
  /-- `MODE` (R11). -/
  mode : Mode
  /-- `ADDR` (R12). -/
  addr : BitVec 4
  /-- `H` (R12). -/
  h : BitVec 16
  /-- `W` (R12). -/
  w : BitVec 16
  /-- `BAUD` (R12). -/
  baud : BitVec 32
  /-- `MARGIN` (R12). -/
  margin : BitVec 32
  /-- `FB` (R14). -/
  fb : Memory
  /-- `PKT` (R15). -/
  pkt : Bytes
  /-- `TXI` (R16). -/
  txi : Nat
  /-- `TIMER`, an unbounded natural (R17). -/
  timer : Nat
  /-- `ERR` (R18). -/
  err : ErrCode
  /-- `REFUSED` (R19). -/
  refused : Bool
  /-- `RESP` (R20). -/
  resp : Resp
  /-- `RDATA` (R20). -/
  rdata : Bool
  /-- A SEND is outstanding at the host port (`43_host_operations.md` R140; log 7). -/
  sendPending : Bool
  /-- `NOW`, the model's count of TICK steps (R25; log 15). -/
  now : Nat
  /-- `TRACE`, the model's record of byte-channel events (R25, `20_memory.md` R54). -/
  trace : List TraceEvent
  /-- The host's operations not yet accepted, in program order (R25; log 5). -/
  hostOps : List PortSignals
  /-- The byte channel's answers not yet given, in order (R25; log 6). -/
  answers : List Answer
  /-- The agents in the order they move (R25; log 2). -/
  turns : List Turn
  deriving DecidableEq, Repr

/-- The reasons the machine stops with a fault. The block's own errors (ConfigurationError, ChannelError) are no stops:
they are next states in mode `FAULT` (`60_exceptions.md` R181, R182). -/
inductive Fault where
  /-- Raised by TXBYTE when `TXI` names no byte of `PKT` (`20_memory.md` R40 gives `PKT` the indices `0..L-1`). No
  reachable state raises it. Safe: the model stops where the spec gives no byte to write (log 13). -/
  | packetIndex
  deriving DecidableEq, Repr

/-- The reasons an instruction has no meaning in a state. The block's own refusal (`60_exceptions.md` R184) is no stop:
it is a next state. -/
inductive Refusal where
  /-- An arm of `exec` without a meaning yet. Safe. -/
  | notModelled (mnemonic : String)
  /-- Raised by FRAME with an address above 15, which has no encoding (`41_packet_framer.md` R90). Safe. -/
  | frameAddress
  /-- Raised by FRAME when the block is not sending that frame: "On the wire, the block emits exactly the frames of rule
  R60 and nothing else; it has no receive path" (`30_encoding.md` R69). Safe (log 11). -/
  | frameNotInFlight
  deriving DecidableEq, Repr

/-- The machine right after reset, at the start of a model run (`10_state.md` R27). The environment's lists are empty
(log 21). -/
def State.reset : State :=
  { mode := .unconf, addr := 0, h := 0, w := 0, baud := 0, margin := 0, fb := [], pkt := [], txi := 0, timer := 0,
    err := .none, refused := false, resp := .ok, rdata := false, sendPending := false, now := 0, trace := [],
    hostOps := [], answers := [], turns := [] }

end Sys2Proof.Machine
end

