-- ==== Sys2Proof/Machine/Flags.lean ====
section
/-! DEFINITION. The status outputs and the numeric codes. The block has no condition codes (`10_state.md` R21); the status
outputs are "pure functions of the state, readable by the host or by any observer at any time without side effect". -/

namespace Sys2Proof.Machine

/-- The codes of `mode[2:0]` (`10_state.md` R11). -/
def Mode.code : Mode → BitVec 3
  | .unconf => 0
  | .idle => 1
  | .tx => 2
  | .flush => 3
  | .fault => 4

/-- The codes of `err[1:0]` (`10_state.md` R18). -/
def ErrCode.code : ErrCode → BitVec 2
  | .none => 0
  | .configuration => 2
  | .channel => 3

/-- The codes of `resp[1:0]` (`10_state.md` R20, `30_encoding.md` R70). -/
def Resp.code : Resp → BitVec 2
  | .ok => 0
  | .refused => 1
  | .configError => 2
  | .channelError => 3

/-- `timer_zero = [TIMER = 0]` (`10_state.md` R21). -/
def timerZero (s : State) : Bool := s.timer == 0

/-- `ready = [MODE = IDLE and TIMER = 0]` (`10_state.md` R21). -/
def ready (s : State) : Bool := s.mode == .idle && s.timer == 0

/-- `busy = [MODE = TX or MODE = FLUSH]` (`10_state.md` R21). -/
def busy (s : State) : Bool := s.mode == .tx || s.mode == .flush

/-- The status outputs (`10_state.md` R21). -/
structure StatusOutputs where
  mode      : BitVec 3
  err       : BitVec 2
  timerZero : Bool
  refused   : Bool
  ready     : Bool
  busy      : Bool
  deriving DecidableEq, Repr

/-- The status outputs of a state (`10_state.md` R21, `43_host_operations.md` R147). -/
def statusOutputs (s : State) : StatusOutputs :=
  { mode := s.mode.code, err := s.err.code, timerZero := timerZero s, refused := s.refused, ready := ready s,
    busy := busy s }

/-- The response outputs of the host port, `resp[1:0]` and `rdata` (`30_encoding.md` R70). -/
def responseOutputs (s : State) : BitVec 2 × Bool := (s.resp.code, s.rdata)

end Sys2Proof.Machine
end

