-- ==== Sys2Proof/Machine/Operands.lean ====
section
/-! DEFINITION. The operand forms of the host operations (`30_encoding.md` R70, R71): every operand is the unsigned value
of its signal, without scaling or sign; what remains are the two tests the operations make on operands. -/

namespace Sys2Proof.Machine

/-- The operands of CONFIGURE are legal: none of "`addr > 15` or `h = 0` or `w = 0` or `baud = 0`"
(`43_host_operations.md` R141). -/
def legalConfiguration (addr : BitVec 8) (h w : BitVec 16) (baud : BitVec 32) : Bool :=
  !(decide (15 < addr.toNat) || h == 0 || w == 0 || baud == 0)

/-- `addr[3:0]` (`43_host_operations.md` R141). -/
def addressField (addr : BitVec 8) : BitVec 4 := addr.setWidth 4

/-- A cell address is in range: `r < H` and `c < W`, as naturals (`20_memory.md` R41, `30_encoding.md` R71). -/
def inRange (s : State) (row col : BitVec 16) : Bool :=
  decide (row.toNat < s.h.toNat) && decide (col.toNat < s.w.toNat)

end Sys2Proof.Machine
end

