-- ==== Sys2Proof/Machine/Ops.lean ====
section
/-! DEFINITION. The named operations over the state that the meanings share: the frame buffer's cells, completing an
operation, refusing one, entering `FAULT`, and RESET, the only way out of it. -/

namespace Sys2Proof.Machine

/-- The key of cell `(r, c)`: row-major, with room for every 16-bit column (`20_memory.md` R41; log 12). -/
def cellKey (r c : Nat) : Nat := r * 65536 + c

/-- Reads the cell with key `k`; a cell that is not listed reads as `Memory.unlisted`. -/
def Memory.read : Memory → Nat → Bool
  | [], _ => Memory.unlisted
  | e :: m, k => if e.1 = k then e.2 else Memory.read m k

/-- An entry in canonical form: nothing for a value that an unlisted cell reads as. -/
def Memory.entry (k : Nat) (v : Bool) : Memory := if v = Memory.unlisted then [] else [(k, v)]

/-- Writes the cell with key `k`, keeping the canonical form. -/
def Memory.write : Memory → Nat → Bool → Memory
  | [], k, v => Memory.entry k v
  | e :: m, k, v =>
    if k < e.1 then Memory.entry k v ++ e :: m
    else if k = e.1 then Memory.entry k v ++ m
    else e :: Memory.write m k v

/-- `MemRead((r, c), 1)` (`00_scope.md` R7); defined for cells in range (`20_memory.md` R41). -/
def readCell (s : State) (r c : Nat) : Bool := Memory.read s.fb (cellKey r c)

/-- `MemWrite((r, c), 1, v)` (`00_scope.md` R7); defined for cells in range (`20_memory.md` R41). -/
def writeCell (s : State) (r c : Nat) (v : Bool) : State := { s with fb := Memory.write s.fb (cellKey r c) v }

/-- `respond(code)`: completes the host operation (`00_scope.md` R7, `10_state.md` R20). -/
def respond (code : Resp) (s : State) : State := { s with resp := code }

/-- `respond(code, bit)`, for GETPIX (`00_scope.md` R7). -/
def respondData (code : Resp) (bit : Bool) (s : State) : State := { s with resp := code, rdata := bit }

/-- `refuse`: `REFUSED <- 1; RESP <- 1` and nothing else (`60_exceptions.md` R184). -/
def refuse (s : State) : State := { s with refused := true, resp := .refused }

/-- The refusal of GETPIX, with `RDATA <- 0` besides (`60_exceptions.md` R184, `43_host_operations.md` R143). -/
def refuseData (s : State) : State := refuse { s with rdata := false }

/-- The response code that equals an error's code (`10_state.md` R18: "equal the response codes of rule R20"). -/
def ErrCode.response : ErrCode → Resp
  | .none => .ok
  | .configuration => .configError
  | .channel => .channelError

/-- Entering `FAULT`, the block's one way to take an error (`60_exceptions.md` R187): "it sets `MODE <- FAULT`, records
the code in `ERR`, answers the operation that caused it, and stops issuing channel transactions". The operation it
answers is no longer outstanding. Nothing is saved and there is no vector. -/
def raiseError (code : ErrCode) (s : State) : State :=
  respond code.response { s with mode := .fault, err := code, sendPending := false }

/-- `raise ConfigurationError` (`60_exceptions.md` R181). -/
def raiseConfigurationError (s : State) : State := raiseError .configuration s

/-- `raise ChannelError` (`60_exceptions.md` R182). -/
def raiseChannelError (s : State) : State := raiseError .channel s

/-- RESET (`70_reset_and_hazards.md` R200): every register takes its reset value, an outstanding SEND is abandoned
without a response, `NOW` and `TRACE` are unchanged, and so is what the environment has yet to do. The only way out of
`FAULT` (`60_exceptions.md` R188). -/
def resetBlock (s : State) : State :=
  { State.reset with now := s.now, trace := s.trace, hostOps := s.hostOps, answers := s.answers, turns := s.turns }

/-- The host port is occupied: a SEND is outstanding, or a packet is in flight (`43_host_operations.md` R140, R146). -/
def portBusy (s : State) : Bool := s.sendPending || s.mode == .tx || s.mode == .flush

/-- A host operation takes effect only at a free port: "while a SEND is outstanding the port accepts no other operation"
(`43_host_operations.md` R140). At an occupied port "a step whose enabling condition is false does not happen; the agent
waits" (`00_scope.md` R8; log 5). -/
def whenPortFree (effect : State → State) (s : State) : Host.Outcome State Fault Refusal :=
  if portBusy s then .next s else .next (effect s)

/-- Appends one event to `TRACE` (`20_memory.md` R54). -/
def record (e : TraceEvent) (s : State) : State := { s with trace := s.trace ++ [e] }

end Sys2Proof.Machine
end

