-- ==== Sys2Proof/Machine/ColumnPacker.lean ====
section
/-! DEFINITION. The ColumnPacker unit: `G`, `COLBYTE`, `PACK` (`40_column_packer.md` R80 to R82), a pure function of the
frame buffer and its dimensions (R83), and the test-bench function `UNPACK` (R84). -/

namespace Sys2Proof.Machine

/-- `[P]`, 1 when `P` holds and 0 otherwise (`00_scope.md` R6). -/
def indicator (p : Bool) : Nat := if p then 1 else 0

/-- `G = ceil(H / 8) = (H + 7) div 8`, the number of 8-row groups (`40_column_packer.md` R80). -/
def groups (h : Nat) : Nat := (h + 7) / 8

/-- `COLBYTE(FB, H, c, g)`, the sum over `k = 0..7` of `2^k * [8*g + k < H and FB[8*g + k][c] = 1]`; a row at or beyond `H`
contributes 0 without being read (`40_column_packer.md` R81). -/
def colByte (fb : Memory) (h c g : Nat) : Byte :=
  BitVec.ofNat 8 ((List.range 8).map fun k =>
    2 ^ k * indicator (decide (8 * g + k < h) && Memory.read fb (cellKey (8 * g + k) c))).sum

/-- `PACK(FB, H, W)`: columns ascending, and within a column groups ascending (`40_column_packer.md` R82). -/
def pack (fb : Memory) (h w : Nat) : Bytes :=
  (List.range w).flatMap fun c => (List.range (groups h)).map fun g => colByte fb h c g

/-- `UNPACK(p, H, W)[r][c] = (p[c*G + r div 8] div 2^(r mod 8)) mod 2` (`40_column_packer.md` R84). A test-bench function:
the block does not implement it. -/
def unpack (p : Bytes) (h r c : Nat) : Bool :=
  (p.getD (c * groups h + r / 8) 0).toNat / 2 ^ (r % 8) % 2 == 1

end Sys2Proof.Machine
end

