-- ==== Sys2Proof/Machine/PacketCodec.lean ====
section
/-! DEFINITION. The PacketCodec unit: hex digits (`30_encoding.md` R61, R62), `BODY`, `CHECKSUM`, `ENCODE`
(`41_packet_framer.md` R91 to R93) and the test-bench function `DECODE` (R98). All are pure functions. -/

namespace Sys2Proof.Machine

/-- `STX`, the raw byte that opens a frame (`30_encoding.md` R66). -/
def stx : Byte := 0x02

/-- `ETX`, the raw byte that closes the body (`30_encoding.md` R66). -/
def etx : Byte := 0x03

/-- The command character, ASCII `'1'` (`30_encoding.md` R60, R63). -/
def command : Byte := 0x31

/-- `hexU(n)`, the uppercase hexadecimal ASCII digit of `n`; its argument is a nibble, so no argument is out of its
domain (`30_encoding.md` R61). -/
def hexU (n : BitVec 4) : Byte :=
  BitVec.ofNat 8 (if n.toNat ≤ 9 then 0x30 + n.toNat else 0x41 + (n.toNat - 10))

/-- The high nibble, `v div 16` (`30_encoding.md` R62). -/
def highNibble (v : Byte) : BitVec 4 := BitVec.ofNat 4 (v.toNat / 16)

/-- The low nibble, `v mod 16` (`30_encoding.md` R62). -/
def lowNibble (v : Byte) : BitVec 4 := BitVec.ofNat 4 (v.toNat % 16)

/-- `hex2(v)`, two digits, high nibble first (`30_encoding.md` R62, `20_memory.md` R44). -/
def hex2 (v : Byte) : Bytes := [hexU (highNibble v), hexU (lowNibble v)]

/-- The payload field: two characters per payload byte, in order (`30_encoding.md` R65). -/
def payloadField (p : Bytes) : Bytes := p.flatMap hex2

/-- The resolution field: the payload byte count modulo 256 (`30_encoding.md` R64). -/
def resolutionField (n : Nat) : Bytes := hex2 (BitVec.ofNat 8 (n % 256))

/-- `BODY(a, p)`: command, address, resolution, payload, ETX (`41_packet_framer.md` R91). -/
def body (a : BitVec 4) (p : Bytes) : Bytes :=
  [command, hexU a] ++ resolutionField p.length ++ payloadField p ++ [etx]

/-- The sum of the bytes as naturals, unbounded (`41_packet_framer.md` R92). -/
def byteSum (b : Bytes) : Nat := (b.map BitVec.toNat).sum

/-- `CHECKSUM(b) = (256 - (S mod 256)) mod 256` (`41_packet_framer.md` R92; `90_conflicts.md` C2 for the outer
`mod 256`). -/
def checksum (b : Bytes) : Byte := BitVec.ofNat 8 ((256 - byteSum b % 256) % 256)

/-- `ENCODE(a, p)`: STX, the body, the checksum in two digits (`41_packet_framer.md` R93). The address is a nibble:
the block's `ADDR` register has 4 bits (R90). -/
def encodePacket (a : BitVec 4) (p : Bytes) : Bytes :=
  [stx] ++ body a p ++ hex2 (checksum (body a p))

/-- Why a byte sequence is no frame (`41_packet_framer.md` R98), one reason per test of `DECODE`. -/
inductive FrameReject where
  /-- Shorter than 8 bytes, or of odd length. -/
  | length
  /-- STX missing at index 0. -/
  | stx
  /-- The byte at index 1 is not `'1'`. -/
  | command
  /-- ETX missing at its offset. -/
  | etx
  /-- A character that must be an uppercase hex digit is not. -/
  | hexDigit
  /-- The resolution field is not the payload length modulo 256. -/
  | resolution
  /-- The checksum invariant fails. -/
  | checksum
  deriving DecidableEq, Repr

/-- `unhex1` inverts `hexU`; lowercase digits are rejected (`41_packet_framer.md` R98). -/
def unhex1 (b : Byte) : Option (BitVec 4) :=
  if 0x30 ≤ b.toNat ∧ b.toNat ≤ 0x39 then some (BitVec.ofNat 4 (b.toNat - 0x30))
  else if 0x41 ≤ b.toNat ∧ b.toNat ≤ 0x46 then some (BitVec.ofNat 4 (b.toNat - 0x41 + 10))
  else none

/-- `unhex2(x, y) = 16*unhex1(x) + unhex1(y)` (`41_packet_framer.md` R98). -/
def unhex2 (x y : Byte) : Option Byte :=
  match unhex1 x, unhex1 y with
  | some hi, some lo => some (BitVec.ofNat 8 (16 * hi.toNat + lo.toNat))
  | _, _ => none

/-- Reads a payload field two characters at a time (`41_packet_framer.md` R98). -/
def unhexPairs : Bytes → Option Bytes
  | [] => some []
  | [_] => none
  | x :: y :: rest =>
    match unhex2 x y, unhexPairs rest with
    | some v, some vs => some (v :: vs)
    | _, _ => none

/-- `DECODE(f)`, for a complete frame of known length (`41_packet_framer.md` R98). A test-bench function: the block
has no decoder (R97). -/
def decodePacket (f : Bytes) : Except FrameReject (BitVec 4 × Bytes) :=
  let n := (f.length - 8) / 2
  if f.length < 8 ∨ (f.length - 8) % 2 ≠ 0 then .error .length
  else if f.getD 0 0 ≠ stx then .error .stx
  else if f.getD 1 0 ≠ command then .error .command
  else if f.getD (5 + 2 * n) 0 ≠ etx then .error .etx
  else
    match unhex1 (f.getD 2 0), unhex2 (f.getD 3 0) (f.getD 4 0), unhexPairs ((f.drop 5).take (2 * n)),
      unhex2 (f.getD (6 + 2 * n) 0) (f.getD (7 + 2 * n) 0) with
    | some a, some len, some p, some ck =>
      if len.toNat ≠ n % 256 then .error .resolution
      else if (byteSum ((f.drop 1).take (5 + 2 * n)) + ck.toNat) % 256 ≠ 0 then .error .checksum
      else .ok (a, p)
    | _, _, _, _ => .error .hexDigit

end Sys2Proof.Machine
end

