-- ==== Sys2Proof/Machine/Scheduler.lean ====
section
/-! DEFINITION. The TransmissionScheduler unit: the derived constants (`10_state.md` R13), the interval timer and the
transmit sequencer (`42_transmission_scheduler.md` R110 to R114). -/

namespace Sys2Proof.Machine

/-- `ceil(a / b) = (a + b - 1) div b` for `b > 0` (`00_scope.md` R6). -/
def ceilDiv (a b : Nat) : Nat := (a + b - 1) / b

/-- `N = W * G`, the payload length (`10_state.md` R13). -/
def payloadLengthOf (h w : Nat) : Nat := w * groups h

/-- `L = 8 + 2 * N`, the packet length (`10_state.md` R13). -/
def packetLengthOf (h w : Nat) : Nat := 8 + 2 * payloadLengthOf h w

/-- `PACKET_BITS = 10 * L` (`10_state.md` R13, `42_transmission_scheduler.md` R110). -/
def packetBits (l : Nat) : Nat := 10 * l

/-- `INTERVAL_TICKS = ceil(PACKET_BITS * TICK_HZ / BAUD) + MARGIN` as a function of its four quantities
(`42_transmission_scheduler.md` R110). -/
def intervalOf (tickHz l baud margin : Nat) : Nat := ceilDiv (packetBits l * tickHz) baud + margin

/-- `L` of the configuration held. -/
def packetLength (s : State) : Nat := packetLengthOf s.h.toNat s.w.toNat

/-- `INTERVAL_TICKS` of the configuration held. -/
def intervalTicks (s : State) : Nat :=
  intervalOf Config.tickHz (packetLength s) s.baud.toNat s.margin.toNat

/-- The payload of the frame buffer held, `PACK(FB, H, W)`. -/
def payload (s : State) : Bytes := pack s.fb s.h.toNat s.w.toNat

/-- `ENCODE(ADDR, PACK(FB, H, W))`, the packet START would store now (`42_transmission_scheduler.md` R111). -/
def nextPacket (s : State) : Bytes := encodePacket s.addr (payload s)

/-- TICK (`42_transmission_scheduler.md` R114): enabled in every mode. The natural subtraction is the saturating one. -/
def tick (s : State) : State := { s with timer := s.timer - 1, now := s.now + 1 }

/-- START (`42_transmission_scheduler.md` R111), atomic. -/
def start (s : State) : State :=
  record (.start s.now)
    { s with pkt := nextPacket s, txi := 0, timer := intervalTicks s, mode := .tx }

/-- START is enabled: a SEND is outstanding, `MODE = IDLE` and `TIMER = 0` (`42_transmission_scheduler.md` R111). -/
def startEnabled (s : State) : Bool := s.sendPending && s.mode == .idle && s.timer == 0

/-- `MODE` after an accepted byte, of which `next` is the number accepted so far: "if TXI + 1 = L then MODE <- FLUSH"
(`42_transmission_scheduler.md` R112). -/
def modeAfterByte (next l : Nat) (m : Mode) : Mode := if next = l then .flush else m

/-- TXBYTE whose `ChWrite(b)` is answered `ok` (`42_transmission_scheduler.md` R112). -/
def byteAccepted (b : Byte) (s : State) : State :=
  record (.byte b s.now)
    { s with txi := s.txi + 1, mode := modeAfterByte (s.txi + 1) (packetLength s) s.mode }

/-- TXBYTE whose `ChWrite(b)` is answered `err` (`42_transmission_scheduler.md` R112). -/
def byteFailed (b : Byte) (s : State) : State := raiseChannelError (record (.writeFail b s.now) s)

/-- TXFLUSH answered `ok`: the outstanding SEND completes (`42_transmission_scheduler.md` R113). -/
def flushAccepted (s : State) : State :=
  respond .ok { record (.flush s.now) s with mode := .idle, sendPending := false }

/-- TXFLUSH answered `err` (`42_transmission_scheduler.md` R113). -/
def flushFailed (s : State) : State := raiseChannelError (record (.flushFail s.now) s)

/-- TXBYTE, in mode `TX` (`42_transmission_scheduler.md` R112): `ChWrite(PKT[TXI])`, answered by the channel. While the
channel has not answered, the block waits (R118, R122; log 6). -/
def txByte (s : State) : Host.Outcome State Fault Refusal :=
  match s.answers, s.pkt[s.txi]? with
  | [], _ => .next s
  | _ :: _, none => .fault .packetIndex
  | .ok :: rest, some b => .next (byteAccepted b { s with answers := rest })
  | .err :: rest, some b => .next (byteFailed b { s with answers := rest })

/-- TXFLUSH, in mode `FLUSH` (`42_transmission_scheduler.md` R113): `ChFlush()`, answered by the channel. -/
def txFlush (s : State) : Host.Outcome State Fault Refusal :=
  match s.answers with
  | [] => .next s
  | .ok :: rest => .next (flushAccepted { s with answers := rest })
  | .err :: rest => .next (flushFailed { s with answers := rest })

/-- The sequencer's turn: the one step its mode enables, or none (`42_transmission_scheduler.md` R111 to R113;
`60_exceptions.md` R188: in `FAULT` "the sequencer takes no step"). -/
def sequencerTurn (s : State) : Host.Outcome State Fault Refusal :=
  match s.mode with
  | .unconf => .next s
  | .idle => if startEnabled s then .next (start s) else .next s
  | .tx => txByte s
  | .flush => txFlush s
  | .fault => .next s

end Sys2Proof.Machine
end

