-- ==== Sys2Proof/Machine/HostOperations.lean ====
section
/-! DEFINITION. The four host operations (`43_host_operations.md` R141 to R144), each at a free port (R140). -/

namespace Sys2Proof.Machine

/-- The effect of CONFIGURE (`43_host_operations.md` R141): the mode is tested first (`60_exceptions.md` R186), then the
operands. -/
def configureEffect (addr : BitVec 8) (h w : BitVec 16) (baud margin : BitVec 32) (s : State) : State :=
  if s.mode ≠ .unconf then refuse s
  else if legalConfiguration addr h w baud then
    respond .ok
      { s with addr := addressField addr, h := h, w := w, baud := baud, margin := margin, fb := [], mode := .idle }
  else raiseConfigurationError s

/-- CONFIGURE (`43_host_operations.md` R141). -/
def execConfigure (addr : BitVec 8) (h w : BitVec 16) (baud margin : BitVec 32) (s : State) :
    Host.Outcome State Fault Refusal :=
  whenPortFree (configureEffect addr h w baud margin) s

/-- The effect of SETPIX (`43_host_operations.md` R142). -/
def setpixEffect (row col : BitVec 16) (v : Bool) (s : State) : State :=
  if s.mode ≠ .idle then refuse s
  else if inRange s row col then respond .ok (writeCell s row.toNat col.toNat v)
  else refuse s

/-- SETPIX (`43_host_operations.md` R142). -/
def execSetpix (row col : BitVec 16) (v : Bool) (s : State) : Host.Outcome State Fault Refusal :=
  whenPortFree (setpixEffect row col v) s

/-- The effect of GETPIX (`43_host_operations.md` R143). -/
def getpixEffect (row col : BitVec 16) (s : State) : State :=
  if s.mode ≠ .idle then refuseData s
  else if inRange s row col then respondData .ok (readCell s row.toNat col.toNat) s
  else refuseData s

/-- GETPIX (`43_host_operations.md` R143). -/
def execGetpix (row col : BitVec 16) (s : State) : Host.Outcome State Fault Refusal :=
  whenPortFree (getpixEffect row col) s

/-- The effect of SEND when it is accepted (`43_host_operations.md` R144): refused at once in `UNCONF` and `FAULT`; in `IDLE`
it is outstanding from then on. START, the bytes and the flush are "separate steps of the sequencer", START being enabled
at once when `TIMER = 0` (R146; log 8) and else when the hold ends (`42_transmission_scheduler.md` R115). -/
def sendEffect (s : State) : State :=
  if s.mode = .unconf ∨ s.mode = .fault then refuse s else { s with sendPending := true }

/-- SEND (`43_host_operations.md` R144). -/
def execSend (s : State) : Host.Outcome State Fault Refusal := whenPortFree sendEffect s

end Sys2Proof.Machine
end

