-- ==== Sys2Proof/Machine/WireFrame.lean ====
section
/-! DEFINITION. The wire frame as the block executes it (log 11).

A FRAME is the block's output: the packet START stores in `PKT` and the sequencer writes, one byte a step, and flushes
(`30_encoding.md` R60, `41_packet_framer.md` R93, `42_transmission_scheduler.md` R112, R113). Executing a FRAME is the
sequencer's next channel transaction of that frame. The block has no receive path (`41_packet_framer.md` R97): a frame it
is not sending has no meaning to it. -/

namespace Sys2Proof.Machine

/-- The block is sending the frame that carries address `a` and payload `p`. -/
def frameInFlight (a : BitVec 4) (p : Bytes) (s : State) : Bool :=
  (s.mode == .tx || s.mode == .flush) && s.pkt == encodePacket a p

/-- FRAME: the next channel transaction of the frame in flight, TXBYTE or TXFLUSH. -/
def execFrame (addr : BitVec 8) (p : Bytes) (s : State) : Host.Outcome State Fault Refusal :=
  if 15 < addr.toNat then .refused .frameAddress
  else if frameInFlight (addr.setWidth 4) p s then sequencerTurn s
  else .refused .frameNotInFlight

end Sys2Proof.Machine
end

