-- ==== Sys2Proof/Machine/Dispatch.lean ====
section
/-! DEFINITION. One arm per row of `spec/opcode_table.json`. -/

namespace Sys2Proof.Machine

def exec (i : Instr) (s : State) : Host.Outcome State Fault Refusal :=
  match i with
  | .configure addr h w baud margin => Sys2Proof.Machine.execConfigure addr h w baud margin s
  | .setpix row col v => Sys2Proof.Machine.execSetpix row col v s
  | .getpix row col => Sys2Proof.Machine.execGetpix row col s
  | .send => Sys2Proof.Machine.execSend s
  | .frame addr payload => Sys2Proof.Machine.execFrame addr payload s

end Sys2Proof.Machine
end

