-- ==== Sys2Proof/WellFormed.lean ====
section
/-! DEFINITION. Which instructions have an encoding.

Every operand of a host operation is presentable: "`h = 0`, `w = 0`, `baud = 0` and `addr > 15` are presentable and are
the ConfigurationError cases" (`30_encoding.md` R71). The one ill-formed term is a FRAME with an address above 15, which
"has no encoding (one hex digit)" (`30_encoding.md` R69, `41_packet_framer.md` R90). -/

namespace Sys2Proof

/-- An instruction has an encoding. -/
def Instr.wellFormed : Instr → Bool
  | .configure _ _ _ _ _ => true
  | .setpix _ _ _ => true
  | .getpix _ _ => true
  | .send => true
  | .frame addr _ => addr.toNat ≤ 15

end Sys2Proof
end

