-- ==== Sys2Proof/Decode.lean ====
section
/-! DEFINITION. Decoding and encoding.

Two encodings exist (`30_encoding.md`, opening): the host port's operation format (R70), whose signals the block
samples, and the wire frame (R60), which the block emits and only a test bench reads (`41_packet_framer.md` R98). How the
port's signals are packed onto a bus is "left to the platform" (R70): the byte layout below is the model's own (log 9). -/

namespace Sys2Proof

/-- The operation codes of `30_encoding.md` R70. All four are defined (R69): no code is rejected. Operand signals an
operation does not list are ignored by it. -/
def decodeSignals (p : PortSignals) : Instr :=
  if p.op = 0b00#2 then .configure p.addr p.h p.w p.baud p.margin
  else if p.op = 0b01#2 then .setpix p.row p.col p.v
  else if p.op = 0b10#2 then .getpix p.row p.col
  else .send

/-- Why bytes decode to no instruction. -/
inductive DecodeError where
  /-- The bytes are not one whole host-port transaction (19 bytes in the model's layout, log 9). -/
  | transactionLength
  /-- The bytes are no frame (`41_packet_framer.md` R98). -/
  | frame (why : Machine.FrameReject)
  deriving DecidableEq, Repr

/-- Two bytes, the first at the lower address, as a 16-bit signal; little-endian (log 9). -/
def pair (lo hi : Byte) : BitVec 16 := hi ++ lo

/-- Four bytes as a 32-bit signal; little-endian (log 9). -/
def quad (b0 b1 b2 b3 : Byte) : BitVec 32 := pair b2 b3 ++ pair b0 b1

/-- The host port's signals read from the 19 bytes of the model's bus layout (log 9): `op` in bits 1..0 of byte 0,
then `addr`, `h`, `w`, `baud`, `margin`, `row`, `col`, and `v` in bit 0 of byte 18. The other bits of bytes 0 and 18 are
no signal of the port and are ignored. -/
def signalsOfBytes : Bytes → Option PortSignals
  | [b0, b1, b2, b3, b4, b5, b6, b7, b8, b9, b10, b11, b12, b13, b14, b15, b16, b17, b18] =>
    some { op := b0.setWidth 2, addr := b1, h := pair b2 b3, w := pair b4 b5, baud := quad b6 b7 b8 b9,
           margin := quad b10 b11 b12 b13, row := pair b14 b15, col := pair b16 b17, v := b18.getLsbD 0 }
  | _ => none

/-- The decoder, total on any bytes, rejecting by name. -/
def decode (port : Port) (bytes : Bytes) : Except DecodeError Instr :=
  match port with
  | .host =>
    match signalsOfBytes bytes with
    | some p => .ok (decodeSignals p)
    | none => .error .transactionLength
  | .wire =>
    match Machine.decodePacket bytes with
    | .ok (a, p) => .ok (.frame (a.setWidth 8) p)
    | .error why => .error (.frame why)

/-- All signals low. -/
def PortSignals.zero : PortSignals :=
  { op := 0, addr := 0, h := 0, w := 0, baud := 0, margin := 0, row := 0, col := 0, v := false }

/-- The signals of CONFIGURE (`30_encoding.md` R70). -/
def configureSignals (addr : BitVec 8) (h w : BitVec 16) (baud margin : BitVec 32) : PortSignals :=
  { PortSignals.zero with op := 0b00#2, addr := addr, h := h, w := w, baud := baud, margin := margin }

/-- The signals of SETPIX (`30_encoding.md` R70). -/
def setpixSignals (row col : BitVec 16) (v : Bool) : PortSignals :=
  { PortSignals.zero with op := 0b01#2, row := row, col := col, v := v }

/-- The signals of GETPIX (`30_encoding.md` R70). -/
def getpixSignals (row col : BitVec 16) : PortSignals :=
  { PortSignals.zero with op := 0b10#2, row := row, col := col }

/-- The signals of SEND (`30_encoding.md` R70). -/
def sendSignals : PortSignals := { PortSignals.zero with op := 0b11#2 }

/-- The signals a host drives for an operation: its code and its operands; signals the operation does not list are low.
A FRAME is no host operation and has none. -/
def encodeSignals : Instr → Option PortSignals
  | .configure addr h w baud margin => some (configureSignals addr h w baud margin)
  | .setpix row col v => some (setpixSignals row col v)
  | .getpix row col => some (getpixSignals row col)
  | .send => some sendSignals
  | .frame _ _ => none

/-- A 16-bit signal as two bytes, low byte first (log 9). -/
def bytesOf16 (x : BitVec 16) : Bytes := [x.extractLsb' 0 8, x.extractLsb' 8 8]

/-- A 32-bit signal as four bytes, low byte first (log 9). -/
def bytesOf32 (x : BitVec 32) : Bytes :=
  [x.extractLsb' 0 8, x.extractLsb' 8 8, x.extractLsb' 16 8, x.extractLsb' 24 8]

/-- The 19 bytes of a transaction in the model's bus layout (log 9). -/
def bytesOfSignals (p : PortSignals) : Bytes :=
  [p.op.setWidth 8, p.addr] ++ bytesOf16 p.h ++ bytesOf16 p.w ++ bytesOf32 p.baud ++ bytesOf32 p.margin
    ++ bytesOf16 p.row ++ bytesOf16 p.col ++ [if p.v then 1 else 0]

/-- Why an instruction has no encoding. -/
inductive EncodeError where
  /-- A FRAME address above 15 has no hex digit: a stand-alone `ENCODE` "should refuse `a > 15` rather than return a
  frame" (`41_packet_framer.md` R90). -/
  | addressAbove15
  deriving DecidableEq, Repr

/-- The encoder: the bytes of a well-formed instruction, from `30_encoding.md` R70 (host operations) and R60 (frames). -/
def encode : Instr → Except EncodeError Bytes
  | .configure addr h w baud margin => .ok (bytesOfSignals (configureSignals addr h w baud margin))
  | .setpix row col v => .ok (bytesOfSignals (setpixSignals row col v))
  | .getpix row col => .ok (bytesOfSignals (getpixSignals row col))
  | .send => .ok (bytesOfSignals sendSignals)
  | .frame addr payload =>
    if addr.toNat ≤ 15 then .ok (Machine.encodePacket (addr.setWidth 4) payload) else .error .addressAbove15

/-- The first `count` bytes of a number whose bit 0 is the least significant bit of the first byte. -/
def bytesOfNat (count w : Nat) : Bytes := (List.range count).map fun i => BitVec.ofNat 8 (w / 256 ^ i)

/-- The bytes a table word stands for (log 10): a row of at most 8 bits is a host operation, whose operand signals above
those bits are 0; a wider row is a frame of `nbits / 8` bytes. -/
def tableWordBytes (nbits w : Nat) : Bytes :=
  if nbits ≤ 8 then bytesOfNat 19 w else bytesOfNat (nbits / 8) w

/-- The port a table row belongs to, told by its width (log 10). -/
def tableWordPort (nbits : Nat) : Port := if nbits ≤ 8 then .host else .wire

/-- The instruction the decoder reads from an opcode-table word (log 10). -/
def decodeTableWord (nbits w : Nat) : Option Instr :=
  match decode (tableWordPort nbits) (tableWordBytes nbits w) with
  | .ok i => some i
  | .error _ => none

end Sys2Proof
end

