-- ==== Sys2Proof/Machine/Fetch.lean ====
section
/-! DEFINITION. Where the next step comes from: the turn, the host's next operation, and placing an operation or a frame
so that the next step runs it. The block fetches no instructions (`10_state.md` R23); what it accepts is the transaction
at its host port. -/

namespace Sys2Proof.Machine

/-- The agent that moves next, and the state with its turn taken; with no turn left the clock moves, since TICK is
always enabled (log 3). -/
def nextTurn (s : State) : Turn × State :=
  match s.turns with
  | [] => (.clock, s)
  | t :: rest => (t, { s with turns := rest })

/-- The host's next operation, decoded from the port's signals, and the state with it taken from the host's program;
none while the port is occupied (`43_host_operations.md` R140; log 5) or when the host has nothing to issue. -/
def acceptedOperation (s : State) : Option (Instr × State) :=
  match portBusy s, s.hostOps with
  | true, _ => none
  | false, [] => none
  | false, p :: rest => some (decodeSignals p, { s with hostOps := rest })

/-- The host presents the transaction `p` next, at a port with no outstanding SEND. -/
def presentTransaction (p : PortSignals) (s : State) : State :=
  { s with sendPending := false, hostOps := p :: s.hostOps, turns := .host :: s.turns }

/-- The frame `f` is in flight from its first byte on, and the channel accepts its next byte. -/
def presentFrame (f : Bytes) (s : State) : State :=
  { s with mode := .tx, pkt := f, txi := 0, sendPending := true, answers := .ok :: s.answers,
           turns := .sequencer :: s.turns }

/-- A table word placed so that the very next step runs it (log 10). -/
def presentTableWord (nbits w : Nat) (s : State) : State :=
  match tableWordPort nbits with
  | .host =>
    match signalsOfBytes (tableWordBytes nbits w) with
    | some p => presentTransaction p s
    | none => s
  | .wire => presentFrame (tableWordBytes nbits w) s

end Sys2Proof.Machine
end

