-- ==== Sys2Proof/Machine/Step.lean ====
section
/-! DEFINITION. One step of one agent (`00_scope.md` R8): "one step happens at a time and its effect is atomic". -/

namespace Sys2Proof.Machine

/-- The step of one agent in a state: the host's next operation, the sequencer's enabled step, TICK or RESET. An agent
without an enabled step waits (`00_scope.md` R8; log 4). No other agent moves (log 20). -/
def agentStep (t : Turn) (s : State) : Host.Outcome State Fault Refusal :=
  match t with
  | .host =>
    match acceptedOperation s with
    | some (i, s') => exec i s'
    | none => .next s
  | .sequencer => sequencerTurn s
  | .clock => .next (tick s)
  | .reset => .next (resetBlock s)

/-- One step of the machine: the agent whose turn it is moves (log 2, 3). -/
def step (s : State) : Host.Outcome State Fault Refusal :=
  agentStep (nextTurn s).1 (nextTurn s).2

/-- `s` with a table word placed where the next step takes its instruction from (log 10, 19). -/
def State.withFetchWord (s : State) (nbits w : Nat) : State := presentTableWord nbits w s

end Sys2Proof.Machine
end

