-- ==== Sys2Proof/Machine/HostSoftware.lean ====
section
/-! DEFINITION. The host software around the block (`44_host_software.md`), as pure functions. It is no part of the block
("A model of the block alone omits this file", R160): no step calls it. It is written down so that a host's program can be
stated: `loadFrame` and `sendFrame` give operations, the animation functions give frames (log 16). Running it over the
block is `HostDriver.lean`. -/

namespace Sys2Proof.Machine

/-- A grid of cells, row 0 on top, `true` lit (`44_host_software.md` R161). -/
abbrev PixelGrid := List (List Bool)

/-- A cell of a grid; unlit outside it. So a bitmap with fewer rows than the panel is unlit below its last row: which of
"height equals panel height" and "cropped to non-blank rows" the rasterizer keeps is open (`91_not_in_source.md` N12), and
this is the model's choice (log 22). -/
def gridCell (g : PixelGrid) (r c : Nat) : Bool := (g.getD r []).getD c false

/-- The all-unlit grid of height `h` and width `w`. -/
def blankGrid (h w : Nat) : PixelGrid := List.replicate h (List.replicate w false)

/-- `margin = round_up(margin_seconds * TICK_HZ)` for a margin of `num / den` seconds (`30_encoding.md` R71). -/
def marginTicks (tickHz num den : Nat) : Nat := ceilDiv (num * tickHz) den

/-- `LOADFRAME g`: one SETPIX per cell of an `h`-by-`w` panel (`44_host_software.md` R162; row-major, any order will do,
`90_conflicts.md` C7). Rows the grid lacks are loaded unlit, the model's choice (log 22). -/
def loadFrame (h w : Nat) (g : PixelGrid) : List Instr :=
  (List.range h).flatMap fun r => (List.range w).map fun c =>
    .setpix (BitVec.ofNat 16 r) (BitVec.ofNat 16 c) (gridCell g r c)

/-- Sending one frame: `LOADFRAME g` and then SEND (`44_host_software.md` R162). -/
def sendFrame (h w : Nat) (g : PixelGrid) : List Instr := loadFrame h w g ++ [.send]

/-- `send` of a sequence: each frame in order (`42_transmission_scheduler.md` R120), as one list of operations. The host
stops issuing them at the first failure: see `HostDriver`, which issues the same operations one at a time. Which sequences
pass through `dedupe` before they are sent is open (`91_not_in_source.md` N11): none does here, the model's choice
(log 23). -/
def sendFrames (h w : Nat) (gs : List PixelGrid) : List Instr := gs.flatMap (sendFrame h w)

/-- Frame `s` of a roll: rows `[0, s)` of `new`, then rows `[0, H - s)` of `old` (`44_host_software.md` R163). The rows
may be of any type. -/
def rollFrame {α : Type} (old new : List α) (s : Nat) : List α := new.take s ++ old.take (new.length - s)

/-- `roll_transition(old, new)`: the frames for `s = 1 .. H` (`44_host_software.md` R163). `H` is the number of rows of
`new`, the model's choice for a bitmap that is not of panel height (log 22). -/
def rollTransition {α : Type} (old new : List α) : List (List α) :=
  (List.range new.length).map fun i => rollFrame old new (i + 1)

/-- The offsets of a scroll: `0, step, ...` below `bw + W`, and then `bw + W` (`44_host_software.md` R164; log 18). -/
def scrollOffsets (bw w step : Nat) : List Nat :=
  (List.range (ceilDiv (bw + w) step)).map (· * step) ++ [bw + w]

/-- One row with `w` blank columns prepended and appended (`44_host_software.md` R164). -/
def paddedRow (w : Nat) (row : List Bool) : List Bool :=
  List.replicate w false ++ row ++ List.replicate w false

/-- `scroll(bitmap, step)` for a bitmap of width `bw` on a panel of width `w` (`44_host_software.md` R164). -/
def scroll (bitmap : PixelGrid) (bw w step : Nat) : List PixelGrid :=
  (scrollOffsets bw w step).map fun offset =>
    bitmap.map fun row => ((paddedRow w row).drop offset).take w

/-- `dedupe(packets)`: maximal runs of equal consecutive elements collapse to one (`44_host_software.md` R165;
`90_conflicts.md` C5 for the empty list). -/
def dedupe {α : Type} [DecidableEq α] : List α → List α
  | [] => []
  | [x] => [x]
  | x :: y :: t => if x = y then dedupe (y :: t) else x :: dedupe (y :: t)

/-- A direct-fit bitmap on a panel of width `w`; where it stands is not in the source (`91_not_in_source.md` N9; log 17).
Columns alone are padded: the rows stay as they are, the model's choice for a bitmap that is not of panel height (log 22). -/
def padBitmap (bitmap : PixelGrid) (bw w : Nat) : PixelGrid :=
  let left := Config.padColumn bw w % (w - bw + 1)
  bitmap.map fun row => List.replicate left false ++ row ++ List.replicate (w - bw - left) false

/-- What `display(bitmap, animate)` sends, for a bitmap of width `bw` (`44_host_software.md` R166). Every frame is sent:
none is passed through `dedupe` first, the model's choice (`91_not_in_source.md` N11; log 23). The bitmap's height is its
number of rows (log 22). -/
def displayFrames (shown bitmap : PixelGrid) (bw h w step : Nat) (animate : Bool) : List PixelGrid :=
  if bw ≤ w then
    if animate then rollTransition shown (padBitmap bitmap bw w) else [padBitmap bitmap bw w]
  else
    (if animate then rollTransition shown (blankGrid h w) else []) ++ scroll bitmap bw w step

/-- DisplayState after a completed `display` (`44_host_software.md` R166). -/
def displayTarget (bitmap : PixelGrid) (bw h w : Nat) : PixelGrid :=
  if bw ≤ w then padBitmap bitmap bw w else blankGrid h w

/-- DisplayState at startup, all-unlit (`44_host_software.md` R167). -/
def displayStateAtStartup (h w : Nat) : PixelGrid := blankGrid h w

end Sys2Proof.Machine
end

