-- ==== Sys2Proof/Machine/HostDriver.lean ====
section
/-! DEFINITION. The host software running over the block (`44_host_software.md` R162, R166 to R168), the DisplayDriver with
its block in one closed loop: it issues an operation, waits for the response, goes on only when it is `OK`, and commits
DisplayState at the end. It is outside the block, and no step of the block calls it. -/

namespace Sys2Proof.Machine

/-- What the caller of `display()` is told (`44_host_software.md` R168). -/
inductive Report where
  /-- Every frame was sent. -/
  | delivered
  /-- An operation was answered with this error, the last response to the caller's request. -/
  | failed (code : Resp)
  /-- The block was reset while the request was in progress (log 24). -/
  | abandoned
  deriving DecidableEq, Repr

/-- The DisplayDriver and its block. -/
structure HostDriver where
  /-- The block, its channel and its schedule. -/
  block : State
  /-- The configured panel height (`44_host_software.md` R169). -/
  h : Nat
  /-- The configured panel width (R169). -/
  w : Nat
  /-- The operations of the frame being sent that are not yet issued (R162). -/
  operations : List Instr
  /-- The frames of the sequence not yet begun (R161: "consumed strictly in order"). -/
  frames : List PixelGrid
  /-- An operation has been issued and its response not yet taken (R170: never two). -/
  waiting : Bool
  /-- DisplayState (R161, R167). -/
  shown : PixelGrid
  /-- What DisplayState is to become when the request is complete (R166). -/
  target : PixelGrid
  /-- The outcome of the last request; none while one is in progress. -/
  report : Option Report
  deriving DecidableEq, Repr

/-- The driver at startup (`44_host_software.md` R167: all-unlit), over a block configured for its panel. -/
def HostDriver.startup (block : State) (h w : Nat) : HostDriver :=
  { block := block, h := h, w := w, operations := [], frames := [], waiting := false,
    shown := displayStateAtStartup h w, target := displayStateAtStartup h w, report := some .delivered }

/-- `display(bitmap, animate)` is called, for a bitmap of width `bw` (`44_host_software.md` R166); a call during a request
queues behind it (`43_host_operations.md` R140), so it does nothing yet. -/
def beginDisplay (bitmap : PixelGrid) (bw step : Nat) (animate : Bool) (d : HostDriver) : HostDriver :=
  match d.report with
  | none => d
  | some _ =>
    { d with operations := [], frames := displayFrames d.shown bitmap bw d.h d.w step animate, waiting := false,
             target := displayTarget bitmap bw d.h d.w, report := none }

/-- The operation issued has been answered: the port has taken it, and no SEND is outstanding. -/
def responseGiven (s : State) : Bool := s.hostOps.isEmpty && !s.sendPending

/-- The operation's signals are driven at the port. -/
def issue (i : Instr) (s : State) : State := { s with hostOps := (encodeSignals i).toList }

/-- The driver ends its request with a report: it issues nothing further (`44_host_software.md` R168). -/
def HostDriver.stop (r : Report) (d : HostDriver) : HostDriver :=
  { d with operations := [], frames := [], waiting := false, report := some r }

/-- The driver takes the response: it goes on after `OK`; any other response ends the request at once, DisplayState "left
at its last fully-committed value", and is reported to the caller (`44_host_software.md` R168,
`42_transmission_scheduler.md` R120; log 24 for responses other than `CHANNEL_ERROR`). -/
def takeResponse (d : HostDriver) : HostDriver :=
  if d.block.resp = .ok then { d with waiting := false } else d.stop (.failed d.block.resp)

/-- The driver's next own action: issue the next operation of the frame, begin the next frame, or commit DisplayState
(`44_host_software.md` R162, R167). -/
def proceed (d : HostDriver) : HostDriver :=
  match d.operations, d.frames with
  | i :: is, _ => { d with operations := is, waiting := true, block := issue i d.block }
  | [], f :: fs => { d with operations := sendFrame d.h d.w f, frames := fs }
  | [], [] => { d.stop .delivered with shown := d.target }

/-- One move of the driver while a request is in progress: it takes the response it waits for, or proceeds. -/
def driverMove (d : HostDriver) : HostDriver :=
  match d.report, d.waiting with
  | some _, _ => d
  | none, true => if responseGiven d.block then takeResponse d else d
  | none, false => proceed d

/-- The block was reset: a request in progress is given up, its operation withdrawn from the port, and DisplayState is not
updated (log 24). -/
def seeReset (d : HostDriver) : HostDriver :=
  match d.report with
  | some _ => d
  | none => { d.stop .abandoned with block := { d.block with hostOps := [] } }

/-- One step of the block and then one move of the driver (log 24). -/
def systemStep (d : HostDriver) : Host.Outcome HostDriver Fault Refusal :=
  match step d.block with
  | .next t =>
    .next (if (nextTurn d.block).1 = .reset then seeReset { d with block := t } else driverMove { d with block := t })
  | .fault r => .fault r
  | .refused r => .refused r

/-- `k` steps of the driver and its block. -/
def systemRun : Nat → HostDriver → Host.Outcome HostDriver Fault Refusal
  | 0, d => .next d
  | k + 1, d =>
    match systemStep d with
    | .next e => systemRun k e
    | .fault r => .fault r
    | .refused r => .refused r

end Sys2Proof.Machine
end

