-- ==== Sys2Proof/Safety.lean ====
section
/-! DEFINITION. What counts as a good state and a safe run, in the terms the statements use. -/

namespace Sys2Proof.Machine

/-- The configuration is legal (`10_state.md` R12: the "Legal values after a successful CONFIGURE"). -/
def configured (s : State) : Prop := s.h ≠ 0 ∧ s.w ≠ 0 ∧ s.baud ≠ 0

/-- Nothing is configured, buffered or timed: the registers as after reset (`10_state.md` R12, R27; `60_exceptions.md`
R181). -/
def blank (s : State) : Prop :=
  s.addr = 0 ∧ s.h = 0 ∧ s.w = 0 ∧ s.baud = 0 ∧ s.margin = 0 ∧ s.fb = [] ∧ s.pkt = [] ∧ s.txi = 0 ∧ s.timer = 0

/-- Every listed cell exists: its row is below `H` and its column below `W` (`10_state.md` R14, `20_memory.md` R41). -/
def cellsInRange (s : State) : Prop :=
  ∀ e ∈ s.fb, e.1 / 65536 < s.h.toNat ∧ e.1 % 65536 < s.w.toNat

/-- The invariant of the block. Every field is a fact of the spec about every state a run reaches. -/
structure BlockInv (s : State) : Prop where
  /-- The frame buffer keeps its canonical form (log 12). -/
  canonical : Memory.wf s.fb
  /-- Only cells of the configured grid are lit (`10_state.md` R14). -/
  inGrid : cellsInRange s
  /-- `ERR` is 0 exactly outside `FAULT` (`10_state.md` R18). -/
  errorOnlyInFault : s.err = .none ↔ s.mode ≠ .fault
  /-- Before CONFIGURE the registers are as reset left them (`10_state.md` R12, R27). -/
  unconfigured : s.mode = .unconf → blank s
  /-- After a ConfigurationError too (`10_state.md` R12, `60_exceptions.md` R181). -/
  configurationError : s.err = .configuration → blank s
  /-- In `IDLE`, `TX`, `FLUSH`, and after a ChannelError, the configuration is legal (`10_state.md` R12). -/
  legal : s.mode = .idle ∨ s.mode = .tx ∨ s.mode = .flush ∨ s.err = .channel → configured s
  /-- `PKT` is empty until the first START, and of length `L` from then on (`10_state.md` R15). -/
  packetLengthKept : s.pkt = [] ∧ s.txi = 0 ∨ s.pkt.length = packetLength s
  /-- The packet in flight is the frame of the frame buffer (`10_state.md` R15, `20_memory.md` R52). -/
  packetBuilt : s.mode = .tx ∨ s.mode = .flush → s.pkt = nextPacket s
  /-- `TXI` never exceeds `L` (`10_state.md` R16). -/
  indexBounded : s.txi ≤ packetLength s
  /-- In `TX` a byte is left to write (`42_transmission_scheduler.md` R112). -/
  indexInTx : s.mode = .tx → s.txi < packetLength s
  /-- In `FLUSH` every byte has been accepted (`10_state.md` R16). -/
  indexInFlush : s.mode = .flush → s.txi = packetLength s
  /-- A SEND is outstanding while a packet is in flight, and only in `IDLE`, `TX` or `FLUSH`
  (`43_host_operations.md` R140, R145). -/
  outstanding : (s.mode = .tx ∨ s.mode = .flush → s.sendPending = true) ∧
    (s.sendPending = true → s.mode = .idle ∨ s.mode = .tx ∨ s.mode = .flush)
  /-- `TIMER` never exceeds `INTERVAL_TICKS` (`10_state.md` R17). -/
  timerBounded : s.timer ≤ intervalTicks s

/-- No RESET is among the turns to come. -/
def noReset (s : State) : Prop := Turn.reset ∉ s.turns

/-- The stamps of the `Start` events, in order (`20_memory.md` R54). -/
def startStamps : List TraceEvent → List Nat
  | [] => []
  | .start t :: es => t :: startStamps es
  | .byte _ _ :: es => startStamps es
  | .writeFail _ _ :: es => startStamps es
  | .flush _ :: es => startStamps es
  | .flushFail _ :: es => startStamps es

/-- The bytes the panel is offered: the `Byte` events in order (`20_memory.md` R54). -/
def offeredBytes : List TraceEvent → Bytes
  | [] => []
  | .byte b _ :: es => b :: offeredBytes es
  | .start _ :: es => offeredBytes es
  | .writeFail _ _ :: es => offeredBytes es
  | .flush _ :: es => offeredBytes es
  | .flushFail _ :: es => offeredBytes es

/-- Consecutive stamps lie at least `d` ticks apart (`42_transmission_scheduler.md` R116). -/
def spaced (d : Nat) : List Nat → Prop
  | [] => True
  | [_] => True
  | a :: b :: ts => a + d ≤ b ∧ spaced d (b :: ts)

/-- The bytes the channel accepted since the last `Start` event, in order (`20_memory.md` R54). -/
def bytesSinceStart (es : List TraceEvent) : Bytes :=
  es.foldl (fun acc e =>
    match e with
    | .start _ => []
    | .byte b _ => acc ++ [b]
    | .writeFail _ _ => acc
    | .flush _ => acc
    | .flushFail _ => acc) []

/-- While a packet is in flight, the channel has accepted exactly its first `TXI` bytes since its `Start`
(`10_state.md` R16, `20_memory.md` R50). -/
def prefixOnWire (s : State) : Prop :=
  s.mode = .tx ∨ s.mode = .flush → bytesSinceStart s.trace = s.pkt.take s.txi

/-- Where the channel's transactions stand (`20_memory.md` R50): between two packets, within one, or stopped by a
failure. -/
inductive WirePhase where
  | between
  | writing
  | failed
  deriving DecidableEq, Repr

/-- The next phase; none for an event that the order of `20_memory.md` R50 does not allow there. -/
def WirePhase.after : WirePhase → TraceEvent → Option WirePhase
  | .between, .start _ => some .writing
  | .writing, .byte _ _ => some .writing
  | .writing, .flush _ => some .between
  | .writing, .writeFail _ _ => some .failed
  | .writing, .flushFail _ => some .failed
  | _, _ => none

/-- The phase after a trace; none if its events are not in order. -/
def wirePhase (es : List TraceEvent) : Option WirePhase :=
  es.foldl (fun phase e => phase.bind (·.after e)) (some .between)

/-- The completed packets of a trace: its `Flush` events (`20_memory.md` R51). -/
def packetsFlushed : List TraceEvent → Nat
  | [] => 0
  | .flush _ :: es => packetsFlushed es + 1
  | .start _ :: es => packetsFlushed es
  | .byte _ _ :: es => packetsFlushed es
  | .writeFail _ _ :: es => packetsFlushed es
  | .flushFail _ :: es => packetsFlushed es

/-- The stamp of an event (`20_memory.md` R54). -/
def TraceEvent.stamp : TraceEvent → Nat
  | .start t => t
  | .byte _ t => t
  | .writeFail _ t => t
  | .flush t => t
  | .flushFail t => t

/-- Whose turn the next step is. -/
def turn (s : State) : Turn := (nextTurn s).1

/-- The host operation the next step takes from the port, if it takes one. -/
def operationTaken (s : State) : Option Instr :=
  match turn s with
  | .host => (acceptedOperation (nextTurn s).2).map Prod.fst
  | .sequencer => none
  | .clock => none
  | .reset => none

/-- The next step is START: the sequencer's turn with START enabled (`42_transmission_scheduler.md` R111). -/
def starts (s : State) : Prop :=
  turn s = .sequencer ∧ s.mode = .idle ∧ s.sendPending = true ∧ s.timer = 0

/-- The packets are paced (`42_transmission_scheduler.md` R116): the `Start` events of `TRACE` lie at least `INTERVAL_TICKS`
apart, the next one cannot come sooner after the last of them, and before CONFIGURE there is none. A RESET in mid-run
gives this up (`70_reset_and_hazards.md` R202). -/
def paced (s : State) : Prop :=
  (s.mode = .unconf → startStamps s.trace = []) ∧ spaced (intervalTicks s) (startStamps s.trace) ∧
    ∀ a, (startStamps s.trace).getLast? = some a → a + intervalTicks s ≤ s.now + s.timer

/-- The events of `TRACE` are in the order of `20_memory.md` R50, and their phase agrees with `MODE` and `ERR`. -/
def eventsInOrder (s : State) : Prop :=
  wirePhase s.trace ≠ none ∧
    (s.mode = .unconf ∨ s.mode = .idle → wirePhase s.trace = some .between) ∧
    (s.mode = .tx ∨ s.mode = .flush → wirePhase s.trace = some .writing) ∧
    (s.err = .channel → wirePhase s.trace = some .failed)

/-- The next step is a channel transaction, TXBYTE in `TX` or TXFLUSH in `FLUSH`, and this is its answer. -/
def transaction (m : Mode) (a : Answer) (s : State) : Prop :=
  turn s = .sequencer ∧ s.mode = m ∧ s.answers.head? = some a

/-- The next value of `MODE`, read row by row from the transition table (`42_transmission_scheduler.md` R123). -/
inductive ModeTable (s : State) : Mode → Prop where
  /-- any, RESET: `UNCONF`. -/
  | reset : turn s = .reset → ModeTable s .unconf
  /-- `UNCONF`, CONFIGURE with legal operands: `IDLE`. -/
  | configured {addr h w baud margin} : s.mode = .unconf →
      operationTaken s = some (.configure addr h w baud margin) →
      ¬ (15 < addr.toNat ∨ h = 0 ∨ w = 0 ∨ baud = 0) → ModeTable s .idle
  /-- `UNCONF`, CONFIGURE with an illegal operand: `FAULT`. -/
  | misconfigured {addr h w baud margin} : s.mode = .unconf →
      operationTaken s = some (.configure addr h w baud margin) →
      (15 < addr.toNat ∨ h = 0 ∨ w = 0 ∨ baud = 0) → ModeTable s .fault
  /-- `IDLE`, START: `TX`. -/
  | started : starts s → ModeTable s .tx
  /-- `TX`, TXBYTE answered `ok`, not the last byte: `TX`. -/
  | byteWritten : transaction .tx .ok s → s.txi + 1 ≠ packetLength s → ModeTable s .tx
  /-- `TX`, TXBYTE answered `ok`, the last byte: `FLUSH`. -/
  | lastByteWritten : transaction .tx .ok s → s.txi + 1 = packetLength s → ModeTable s .flush
  /-- `TX`, TXBYTE answered `err`: `FAULT`. -/
  | writeFailed : transaction .tx .err s → ModeTable s .fault
  /-- `FLUSH`, TXFLUSH answered `ok`: `IDLE`. -/
  | flushed : transaction .flush .ok s → ModeTable s .idle
  /-- `FLUSH`, TXFLUSH answered `err`: `FAULT`. -/
  | flushFailed : transaction .flush .err s → ModeTable s .fault

/-- `k` steps of the machine, stopping at the first fault or refusal. -/
def run : Nat → State → Host.Outcome State Fault Refusal
  | 0, s => .next s
  | k + 1, s =>
    match step s with
    | .next t => run k t
    | .fault r => .fault r
    | .refused r => .refused r

/-- The operations of a list executed one after the other, stopping at the first fault or refusal. -/
def execAll : List Instr → State → Host.Outcome State Fault Refusal
  | [], s => .next s
  | i :: is, s =>
    match exec i s with
    | .next t => execAll is t
    | .fault r => .fault r
    | .refused r => .refused r

end Sys2Proof.Machine
end

