-- ==== Sys2Proof/Certificates/Slice0/Obligations.lean ====
section
/-! DEFINITION. The statements for the provers. -/

section
open Sys2Proof Sys2Proof.Machine

/-! ## Reset and the shape of a step -/

/-- RESET (`70_reset_and_hazards.md` R200): from every state, in one step, every register takes its reset value, an
outstanding SEND is abandoned, and `NOW` and `TRACE` are unchanged. -/
def Obligations.ResetRestoresResetValues : Prop :=
  ∀ s : State, turn s = .reset →
    ∃ t, step s = .next t ∧ t.mode = .unconf ∧ t.addr = 0 ∧ t.h = 0 ∧ t.w = 0 ∧ t.baud = 0 ∧ t.margin = 0 ∧ t.fb = [] ∧
      t.pkt = [] ∧ t.txi = 0 ∧ t.timer = 0 ∧ t.err = .none ∧ t.refused = false ∧ t.resp = .ok ∧ t.rdata = false ∧
      t.sendPending = false ∧ t.now = s.now ∧ t.trace = s.trace

/-- The state after reset satisfies the invariant, paces its packets and has its channel events in order; a model run starts with `NOW = 0` and an empty `TRACE`, and the status
outputs are those of `10_state.md` R27 (its derived row). -/
def Obligations.ResetSatisfiesInvariant : Prop :=
  BlockInv State.reset ∧ paced State.reset ∧ eventsInOrder State.reset ∧ State.reset.now = 0 ∧ State.reset.trace = [] ∧
  statusOutputs State.reset =
    { mode := 0, err := 0, timerZero := true, refused := false, ready := false, busy := false }

/-- A step runs the decoded operation: when it is the host's turn, the port is free, and the bytes of the next
transaction decode to `i`, the step is `exec i` with the turn and the transaction taken. -/
def Obligations.StepRunsDecodedOperation : Prop :=
  ∀ (s : State) (bytes : Bytes) (p : PortSignals) (i : Instr) (ts : List Turn) (ps : List PortSignals),
    s.turns = .host :: ts → s.hostOps = p :: ps → portBusy s = false →
    signalsOfBytes bytes = some p → decode .host bytes = .ok i →
    step s = exec i { s with turns := ts, hostOps := ps }

/-- A step runs the frame in flight: when it is the sequencer's turn in `TX` or `FLUSH` and the bytes of `PKT` decode to
`i`, the step is `exec i` with the turn taken. -/
def Obligations.StepRunsFrameInFlight : Prop :=
  ∀ (s : State) (i : Instr) (ts : List Turn),
    s.turns = .sequencer :: ts → s.mode = .tx ∨ s.mode = .flush → decode .wire s.pkt = .ok i →
    step s = exec i { s with turns := ts }

/-- The other turns: TICK on the clock's turn, TICK when no turn is left (the model's choice, log 3), nothing but the turn
taken when the host has no operation or the port is occupied (`43_host_operations.md` R140; log 4, 5) or when the channel
has not answered (`42_transmission_scheduler.md` R118, R122; log 6), and RESET, which leaves what the environment has yet to
do (the model's choice, log 21). -/
def Obligations.StepOfWaitingAgents : Prop :=
  (∀ (s : State) (ts : List Turn), s.turns = .clock :: ts → step s = .next (tick { s with turns := ts })) ∧
  (∀ s : State, s.turns = [] → step s = .next (tick s)) ∧
  (∀ (s : State) (ts : List Turn), s.turns = .host :: ts → portBusy s = true ∨ s.hostOps = [] →
    step s = .next { s with turns := ts }) ∧
  (∀ (s : State) (ts : List Turn), s.turns = .sequencer :: ts → s.mode = .tx ∨ s.mode = .flush → s.answers = [] →
    step s = .next { s with turns := ts }) ∧
  (∀ (s : State) (ts : List Turn), s.turns = .reset :: ts →
    step s = .next { State.reset with
      now := s.now, trace := s.trace, hostOps := s.hostOps, answers := s.answers, turns := ts })

/-! ## The host operations -/

/-- CONFIGURE (`43_host_operations.md` R141), at a free port: refused outside `UNCONF`; ConfigurationError on an illegal
operand, which writes no configuration register; else the five registers, the all-unlit grid, `IDLE` and `OK`, and
nothing else. -/
def Obligations.ConfigureEffect : Prop :=
  ∀ (addr : BitVec 8) (h w : BitVec 16) (baud margin : BitVec 32) (s : State), portBusy s = false →
    (s.mode ≠ .unconf →
      exec (.configure addr h w baud margin) s = .next { s with refused := true, resp := .refused }) ∧
    (s.mode = .unconf → 15 < addr.toNat ∨ h = 0 ∨ w = 0 ∨ baud = 0 →
      exec (.configure addr h w baud margin) s =
        .next { s with mode := .fault, err := .configuration, resp := .configError }) ∧
    (s.mode = .unconf → addr.toNat ≤ 15 → h ≠ 0 → w ≠ 0 → baud ≠ 0 →
      ∃ t, exec (.configure addr h w baud margin) s = .next t ∧
        t = { s with addr := t.addr, h := h, w := w, baud := baud, margin := margin, fb := t.fb, mode := .idle,
                     resp := .ok } ∧
        t.addr.toNat = addr.toNat ∧ Memory.wf t.fb ∧ ∀ r c, readCell t r c = false)

/-- SETPIX (`43_host_operations.md` R142), at a free port: refused outside `IDLE` and out of range; else one cell and the
response, and nothing else; writing the value a cell already holds changes nothing. -/
def Obligations.SetpixEffect : Prop :=
  ∀ (row col : BitVec 16) (v : Bool) (s : State), portBusy s = false →
    (s.mode ≠ .idle ∨ s.h.toNat ≤ row.toNat ∨ s.w.toNat ≤ col.toNat →
      exec (.setpix row col v) s = .next { s with refused := true, resp := .refused }) ∧
    (s.mode = .idle → row.toNat < s.h.toNat → col.toNat < s.w.toNat → Memory.wf s.fb →
      ∃ t, exec (.setpix row col v) s = .next t ∧ t = { s with fb := t.fb, resp := .ok } ∧ Memory.wf t.fb ∧
        readCell t row.toNat col.toNat = v ∧
        (∀ r c, c < 65536 → (r, c) ≠ (row.toNat, col.toNat) → readCell t r c = readCell s r c) ∧
        (readCell s row.toNat col.toNat = v → t.fb = s.fb))

/-- GETPIX (`43_host_operations.md` R143), at a free port: refused with `RDATA <- 0` outside `IDLE` and out of range; else
the cell's value, and no side effect on the frame buffer or anything else. -/
def Obligations.GetpixEffect : Prop :=
  ∀ (row col : BitVec 16) (s : State), portBusy s = false →
    (s.mode ≠ .idle ∨ s.h.toNat ≤ row.toNat ∨ s.w.toNat ≤ col.toNat →
      exec (.getpix row col) s = .next { s with refused := true, resp := .refused, rdata := false }) ∧
    (s.mode = .idle → row.toNat < s.h.toNat → col.toNat < s.w.toNat →
      exec (.getpix row col) s = .next { s with resp := .ok, rdata := readCell s row.toNat col.toNat })

/-- SEND (`43_host_operations.md` R144), at a free port: refused at once in `UNCONF` and `FAULT`; in `IDLE` it is outstanding
from then on, and nothing else changes, `TIMER` whatever it is: START is a later step, and the clock's tick or RESET may
fall between. -/
def Obligations.SendEffect : Prop :=
  ∀ s : State, portBusy s = false →
    (s.mode = .unconf ∨ s.mode = .fault →
      exec .send s = .next { s with refused := true, resp := .refused }) ∧
    (s.mode = .idle → exec .send s = .next { s with sendPending := true })

/-- The port while it is occupied (`43_host_operations.md` R140, R146): a host operation presented there has no effect. -/
def Obligations.OccupiedPortHasNoEffect : Prop :=
  ∀ (i : Instr) (s : State), i.port = .host → portBusy s = true → exec i s = .next s

/-- Which operations are refused (`43_host_operations.md` R145): at a free port an operation answers with the refusal, and
nothing else changed, exactly in the listed cases. -/
def Obligations.RefusedExactlyInListedCases : Prop :=
  ∀ s : State, portBusy s = false →
    (∀ addr h w baud margin,
      exec (.configure addr h w baud margin) s = .next { s with refused := true, resp := .refused } ↔
        s.mode ≠ .unconf) ∧
    (∀ row col v, exec (.setpix row col v) s = .next { s with refused := true, resp := .refused } ↔
      s.mode ≠ .idle ∨ s.h.toNat ≤ row.toNat ∨ s.w.toNat ≤ col.toNat) ∧
    (∀ row col, exec (.getpix row col) s = .next { s with refused := true, resp := .refused, rdata := false } ↔
      s.mode ≠ .idle ∨ s.h.toNat ≤ row.toNat ∨ s.w.toNat ≤ col.toNat) ∧
    (exec .send s = .next { s with refused := true, resp := .refused } ↔ s.mode = .unconf ∨ s.mode = .fault)

/-- `ready` (`10_state.md` R21): at a free port, "a SEND issued now starts at once" exactly when `ready` is 1: SEND answers a
state in which START is enabled (the reading of "at once", log 8), so that the sequencer's turn starts the packet. -/
def Obligations.ReadyMeansSendStartsAtOnce : Prop :=
  ∀ s : State, portBusy s = false →
    ((statusOutputs s).ready = true ↔
      ∃ t u, exec .send s = .next t ∧ agentStep .sequencer t = .next u ∧ u.mode = .tx)

/-- The status outputs (`10_state.md` R21), with the codes of R11 and R18. -/
def Obligations.StatusOutputsReadTheState : Prop :=
  ∀ s : State,
    (statusOutputs s).mode = (match s.mode with
      | .unconf => 0 | .idle => 1 | .tx => 2 | .flush => 3 | .fault => 4) ∧
    (statusOutputs s).err = (match s.err with | .none => 0 | .configuration => 2 | .channel => 3) ∧
    ((statusOutputs s).timerZero = true ↔ s.timer = 0) ∧ (statusOutputs s).refused = s.refused ∧
    ((statusOutputs s).ready = true ↔ s.mode = .idle ∧ s.timer = 0) ∧
    ((statusOutputs s).busy = true ↔ s.mode = .tx ∨ s.mode = .flush)

/-! ## The sequencer, the clock and the frame -/

/-- START (`42_transmission_scheduler.md` R111): on the sequencer's turn in `IDLE` it happens when a SEND is outstanding and
`TIMER = 0`, writes `PKT`, `TXI`, `TIMER`, `MODE` and `TRACE` and nothing else, and otherwise does not happen. -/
def Obligations.StartLatchesPacket : Prop :=
  ∀ s : State, s.mode = .idle →
    (s.sendPending = true → s.timer = 0 →
      agentStep .sequencer s = .next
        { s with pkt := encodePacket s.addr (pack s.fb s.h.toNat s.w.toNat), txi := 0, timer := intervalTicks s,
                 mode := .tx, trace := s.trace ++ [.start s.now] }) ∧
    (s.sendPending = false ∨ s.timer ≠ 0 → agentStep .sequencer s = .next s)

/-- TXBYTE (`42_transmission_scheduler.md` R112): on the sequencer's turn in `TX` the byte `PKT[TXI]` goes to the channel;
answered `ok`, it is recorded and `TXI` advances, into `FLUSH` after the last byte; answered `err`, the failure is recorded
and ChannelError is raised; nothing else changes. -/
def Obligations.TxbyteWritesNextByte : Prop :=
  ∀ (b : Byte) (s : State), s.mode = .tx → s.pkt[s.txi]? = some b →
    (∀ rest, s.answers = .ok :: rest →
      agentStep .sequencer s = .next
        { s with answers := rest, txi := s.txi + 1, trace := s.trace ++ [.byte b s.now],
                 mode := if s.txi + 1 = packetLength s then .flush else .tx }) ∧
    (∀ rest, s.answers = .err :: rest →
      agentStep .sequencer s = .next
        { s with answers := rest, trace := s.trace ++ [.writeFail b s.now], mode := .fault, err := .channel,
                 resp := .channelError, sendPending := false })

/-- TXFLUSH (`42_transmission_scheduler.md` R113): on the sequencer's turn in `FLUSH`, answered `ok`, the outstanding SEND
completes with `OK` in `IDLE`; answered `err`, ChannelError; `TIMER` is not touched, and nothing else changes. -/
def Obligations.TxflushEndsPacket : Prop :=
  ∀ s : State, s.mode = .flush →
    (∀ rest, s.answers = .ok :: rest →
      agentStep .sequencer s = .next
        { s with answers := rest, trace := s.trace ++ [.flush s.now], mode := .idle, resp := .ok,
                 sendPending := false }) ∧
    (∀ rest, s.answers = .err :: rest →
      agentStep .sequencer s = .next
        { s with answers := rest, trace := s.trace ++ [.flushFail s.now], mode := .fault, err := .channel,
                 resp := .channelError, sendPending := false })

/-- FRAME (the model's reading of the table's row, log 11; the channel's answers, log 6): executing the frame in flight answers a next state, which is the
sequencer's; with a byte left to write and the channel's `ok` the byte reaches the wire, with every byte written and `ok`
the packet ends, with `err` the block faults, without an answer nothing happens; no other register changes. -/
def Obligations.FrameRunsNextTransaction : Prop :=
  ∀ (a : BitVec 4) (p : Bytes) (s : State), s.pkt = encodePacket a p →
    s.mode = .tx ∧ s.txi < (encodePacket a p).length ∨ s.mode = .flush →
    exec (.frame (a.setWidth 8) p) s = agentStep .sequencer s ∧
    ∃ t, exec (.frame (a.setWidth 8) p) s = .next t ∧
      t = { s with mode := t.mode, txi := t.txi, err := t.err, resp := t.resp, sendPending := t.sendPending,
                   trace := t.trace, answers := t.answers } ∧
      (s.answers = [] → t = s) ∧ t.answers = s.answers.tail ∧
      (s.answers.head? = some .ok → s.mode = .tx →
        t.txi = s.txi + 1 ∧ ∃ b, (encodePacket a p)[s.txi]? = some b ∧ t.trace = s.trace ++ [.byte b s.now]) ∧
      (s.answers.head? = some .ok → s.mode = .flush →
        t.mode = .idle ∧ t.resp = .ok ∧ t.txi = s.txi ∧ t.trace = s.trace ++ [.flush s.now]) ∧
      (s.answers.head? = some .err →
        t.mode = .fault ∧ t.err = .channel ∧ t.resp = .channelError ∧ t.txi = s.txi)

/-- A FRAME the block is not sending (`30_encoding.md` R69, `41_packet_framer.md` R90, R97; the model's choice of stop,
log 11): refused by name. -/
def Obligations.FrameNotInFlightRefused : Prop :=
  ∀ (addr : BitVec 8) (p : Bytes) (s : State),
    (15 < addr.toNat → exec (.frame addr p) s = .refused .frameAddress) ∧
    (addr.toNat ≤ 15 → (s.mode ≠ .tx ∧ s.mode ≠ .flush) ∨ s.pkt ≠ encodePacket (addr.setWidth 4) p →
      exec (.frame addr p) s = .refused .frameNotInFlight)

/-- TICK (`42_transmission_scheduler.md` R114): in every mode `TIMER` counts down to 0 and stays there, `NOW` counts up, and
nothing else changes. -/
def Obligations.TickCountsDown : Prop :=
  ∀ s : State, agentStep .clock s = .next { s with timer := max 0 (s.timer - 1), now := s.now + 1 } ∧
    (∀ n, s.timer = n + 1 → ∀ t, agentStep .clock s = .next t → t.timer = n) ∧
    (s.timer = 0 → ∀ t, agentStep .clock s = .next t → t.timer = 0)

/-- The transition table (`42_transmission_scheduler.md` R123): every step leaves `MODE` unchanged or follows a row, and a
row whose event happens is followed; `ERR` holds the row's code when `FAULT` is entered. -/
def Obligations.ModeFollowsTransitionTable : Prop :=
  ∀ s t : State, step s = .next t →
    (t.mode = s.mode ∨ ModeTable s t.mode) ∧ (∀ m, ModeTable s m → t.mode = m) ∧
    (s.mode = .unconf → t.mode = .fault → t.err = .configuration) ∧
    (s.mode = .tx ∨ s.mode = .flush → t.mode = .fault → t.err = .channel) ∧
    (s.mode = .fault → t.mode = .fault ∨ turn s = .reset)

/-- `FAULT` is left only by reset (`60_exceptions.md` R188): every host operation is refused, the sequencer takes no step,
no channel transaction is made, and TICK still counts `TIMER` down. -/
def Obligations.FaultIsFinal : Prop :=
  ∀ s t : State, s.mode = .fault → turn s ≠ .reset → step s = .next t →
    t.mode = .fault ∧ t.err = s.err ∧ t.trace = s.trace ∧ t.answers = s.answers ∧ t.fb = s.fb ∧ t.pkt = s.pkt ∧
    t.txi = s.txi ∧ t.addr = s.addr ∧ t.h = s.h ∧ t.w = s.w ∧ t.baud = s.baud ∧ t.margin = s.margin ∧
    (turn s = .clock → t.timer = s.timer - 1) ∧ (turn s ≠ .clock → t.timer = s.timer) ∧
    (operationTaken s ≠ none → t.refused = true ∧ t.resp = .refused) ∧
    (turn s = .sequencer → t = { s with turns := t.turns }) ∧
    (statusOutputs t).mode = 4 ∧ (statusOutputs t).err = s.err.code

/-- The "written by" column of the state table (`10_state.md` R10): a register changes only in a step the table lists for
it (with RESET, `70_reset_and_hazards.md` R200). -/
def Obligations.RegistersWrittenOnlyAsListed : Prop :=
  ∀ s t : State, step s = .next t → turn s ≠ .reset →
    (t.mode ≠ s.mode → (s.mode = .unconf ∧ ∃ addr h w baud margin,
        operationTaken s = some (.configure addr h w baud margin)) ∨
      starts s ∨ (∃ a, transaction .tx a s) ∨ ∃ a, transaction .flush a s) ∧
    (t.addr ≠ s.addr ∨ t.h ≠ s.h ∨ t.w ≠ s.w ∨ t.baud ≠ s.baud ∨ t.margin ≠ s.margin →
      s.mode = .unconf ∧ ∃ addr h w baud margin, operationTaken s = some (.configure addr h w baud margin)) ∧
    (t.fb ≠ s.fb → (s.mode = .unconf ∧ ∃ addr h w baud margin,
        operationTaken s = some (.configure addr h w baud margin)) ∨
      ∃ row col v, operationTaken s = some (.setpix row col v)) ∧
    (t.pkt ≠ s.pkt → starts s) ∧
    (t.txi ≠ s.txi → starts s ∨ transaction .tx .ok s) ∧
    (t.timer ≠ s.timer → starts s ∨ turn s = .clock) ∧
    (t.err ≠ s.err → (s.mode = .unconf ∧ ∃ addr h w baud margin,
        operationTaken s = some (.configure addr h w baud margin)) ∨
      transaction .tx .err s ∨ transaction .flush .err s) ∧
    (t.refused ≠ s.refused → t.refused = true ∧ operationTaken s ≠ none) ∧
    (t.resp ≠ s.resp → operationTaken s ≠ none ∨ transaction .tx .err s ∨ ∃ a, transaction .flush a s) ∧
    (t.rdata ≠ s.rdata → ∃ row col, operationTaken s = some (.getpix row col)) ∧
    (t.now ≠ s.now → turn s = .clock)

/-- One transaction at a time, in order (`20_memory.md` R50, R54): a step takes at most the first of the host's operations,
at most the first of the channel's answers, and appends at most one event to `TRACE`, stamped with `NOW`; it takes an
answer exactly when it records a channel transaction. -/
def Obligations.OneTransactionPerStep : Prop :=
  ∀ s t : State, step s = .next t →
    (t.hostOps = s.hostOps ∨ ∃ p, s.hostOps = p :: t.hostOps) ∧
    (t.answers = s.answers ∨ ∃ a, s.answers = a :: t.answers) ∧
    (t.trace = s.trace ∨ ∃ e : TraceEvent, t.trace = s.trace ++ [e] ∧ e.stamp = s.now) ∧
    (t.answers ≠ s.answers ↔ ∃ e : TraceEvent, t.trace = s.trace ++ [e] ∧ ∀ n, e ≠ .start n)

/-- What the scheduler does not read (`42_transmission_scheduler.md` R124): while a packet is in flight the sequencer's step
does not depend on the frame buffer, and writes nothing that depends on it. -/
def Obligations.SequencerIgnoresFrameBuffer : Prop :=
  ∀ (s t : State) (fb : Memory), s.mode = .tx ∨ s.mode = .flush → agentStep .sequencer s = .next t →
    agentStep .sequencer { s with fb := fb } = .next { t with fb := fb } ∧ t.fb = s.fb

/-! ## Invariants -/

/-- Every step keeps the invariant. -/
def Obligations.StepKeepsInvariant : Prop :=
  ∀ s t : State, BlockInv s → step s = .next t → BlockInv t

/-- From a state of the invariant the machine never stops: no fault and no refusal, whatever the environment does. -/
def Obligations.StepNeverStops : Prop :=
  ∀ s : State, BlockInv s → ∃ t, step s = .next t

/-- The bytes on the wire since the last `Start` are the first `TXI` bytes of `PKT`, kept by every step
(`10_state.md` R16). -/
def Obligations.StepKeepsPrefixOnWire : Prop :=
  ∀ s t : State, BlockInv s → prefixOnWire s → step s = .next t → prefixOnWire t

/-- "when SEND responds `OK`, all `L` bytes have been accepted and the flush has been answered `ok`" (`20_memory.md` R51):
the step that completes a packet leaves on the wire the whole frame of the frame buffer, and the flush. -/
def Obligations.OkMeansWholeFrameAccepted : Prop :=
  ∀ s t : State, BlockInv s → prefixOnWire s → s.mode = .flush → step s = .next t → t.mode = .idle →
    t.resp = .ok ∧ t.sendPending = false ∧ t.trace = s.trace ++ [.flush s.now] ∧
    bytesSinceStart t.trace = encodePacket s.addr (pack s.fb s.h.toNat s.w.toNat) ∧
    (bytesSinceStart t.trace).length = packetLength s

/-- Every step but RESET keeps the pacing (`42_transmission_scheduler.md` R116): the `Start` events lie at least
`INTERVAL_TICKS` apart, and `TIMER` holds what is still to elapse since the last of them. -/
def Obligations.StepKeepsPacing : Prop :=
  ∀ s t : State, BlockInv s → paced s → turn s ≠ .reset → step s = .next t → paced t

/-- Every step but RESET keeps the channel's events in order (`20_memory.md` R50, R51): the phase of `TRACE` agrees with
`MODE` and `ERR`. -/
def Obligations.StepKeepsEventsInOrder : Prop :=
  ∀ s t : State, BlockInv s → eventsInOrder s → turn s ≠ .reset → step s = .next t → eventsInOrder t

/-- The pacing guarantee (`42_transmission_scheduler.md` R116): in every run without a reset, consecutive `Start` events
lie at least `INTERVAL_TICKS` apart, for every tick frequency and every environment. -/
def Obligations.PacingGuarantee : Prop :=
  ∀ (k : Nat) (s t : State) (events : List TraceEvent), BlockInv s → noReset s → run k s = .next t →
    t.trace = s.trace ++ events → spaced (intervalTicks t) (startStamps events)

/-- The order of the channel's transactions (`20_memory.md` R50, R51): in every run without a reset from a block that has
sent nothing yet, the events are packets one after the other, each a `Start`, its bytes and its flush, and nothing follows
a failure. -/
def Obligations.ChannelEventsInOrder : Prop :=
  ∀ (k : Nat) (s t : State), BlockInv s → noReset s → s.trace = [] → s.mode = .unconf ∨ s.mode = .idle →
    run k s = .next t → wirePhase t.trace ≠ none ∧
      (t.mode = .idle → wirePhase t.trace = some .between) ∧
      (t.mode = .tx ∨ t.mode = .flush → wirePhase t.trace = some .writing) ∧
      (t.err = .channel → wirePhase t.trace = some .failed)

/-! ## Whole transmissions -/

/-- A SEND with a willing channel (`43_host_operations.md` R144): issued in `IDLE` with `TIMER = 0`, and with the sequencer
given a turn for START and `L + 1` turns that are all answered `ok`, it writes exactly the frame of the frame buffer,
flushes, responds `OK` and returns to `IDLE`, and changes nothing else. -/
def Obligations.SendDeliversFrame : Prop :=
  ∀ (s : State) (ps : List PortSignals) (as : List Answer) (ts : List Turn),
    s.mode = .idle → s.timer = 0 → portBusy s = false → s.hostOps = sendSignals :: ps →
    s.answers = List.replicate (packetLength s + 1) .ok ++ as →
    s.turns = .host :: .sequencer :: (List.replicate (packetLength s + 1) .sequencer ++ ts) →
    run (packetLength s + 3) s = .next
      { s with pkt := encodePacket s.addr (pack s.fb s.h.toNat s.w.toNat), txi := packetLength s,
               timer := intervalTicks s, resp := .ok,
               trace := s.trace ++ .start s.now ::
                 (encodePacket s.addr (pack s.fb s.h.toNat s.w.toNat)).map (TraceEvent.byte · s.now) ++ [.flush s.now],
               hostOps := ps, answers := as, turns := ts }

/-- A channel failure (`60_exceptions.md` R182): if the channel accepts `k` bytes of a packet and fails the next, exactly
those `k` are on the wire, then the failed attempt, no flush; the SEND responds `CHANNEL_ERROR` in `FAULT`. -/
def Obligations.ChannelFailureStopsPacket : Prop :=
  ∀ (s : State) (k : Nat) (b : Byte) (as : List Answer) (ts : List Turn),
    BlockInv s → s.mode = .tx → s.txi = 0 → s.pkt[k]? = some b →
    s.answers = List.replicate k .ok ++ .err :: as → s.turns = List.replicate (k + 1) .sequencer ++ ts →
    run (k + 1) s = .next
      { s with mode := .fault, err := .channel, resp := .channelError, sendPending := false, txi := k,
               trace := s.trace ++ (s.pkt.take k).map (TraceEvent.byte · s.now) ++ [.writeFail b s.now],
               answers := as, turns := ts }

/-- The hold (`42_transmission_scheduler.md` R115): an outstanding SEND in `IDLE` starts on the sequencer's turn after
exactly `TIMER` ticks, and not after fewer. -/
def Obligations.HeldSendStartsWhenTimerExpires : Prop :=
  ∀ (s : State) (k : Nat) (ts : List Turn), s.mode = .idle → s.sendPending = true → k ≤ s.timer →
    s.turns = List.replicate k .clock ++ .sequencer :: ts →
    (k < s.timer →
      run (k + 1) s = .next { s with timer := s.timer - k, now := s.now + k, turns := ts }) ∧
    (k = s.timer →
      run (k + 1) s = .next
        { s with pkt := encodePacket s.addr (pack s.fb s.h.toNat s.w.toNat), txi := 0, timer := intervalTicks s,
                 mode := .tx, now := s.now + k, trace := s.trace ++ [.start (s.now + k)], turns := ts })

/-! ## The packer -/

/-- `PACK` (`40_column_packer.md` R82, `20_memory.md` R42, R43): its length is `W * G`, and bit `k` of byte `c*G + g` is
lit exactly when row `8*g + k` of column `c` is lit and below `H`. -/
def Obligations.PackLayout : Prop :=
  ∀ (fb : Memory) (h w : Nat), (pack fb h w).length = w * ((h + 7) / 8) ∧
    ∀ c g, c < w → g < (h + 7) / 8 →
      ∃ b, (pack fb h w)[c * ((h + 7) / 8) + g]? = some b ∧
        ∀ k, k < 8 → (b.getLsbD k = true ↔ Memory.read fb (cellKey (8 * g + k) c) = true ∧ 8 * g + k < h)

/-- `UNPACK` inverts `PACK` (`40_column_packer.md` R84, the spec's derived claim), for every height. -/
def Obligations.UnpackInvertsPack : Prop :=
  ∀ (fb : Memory) (h w r c : Nat), r < h → c < w →
    unpack (pack fb h w) h r c = Memory.read fb (cellKey r c)

/-- `PACK` is injective on grids (`40_column_packer.md` R84, the spec's derived claim): two frame buffers of one
configuration that pack alike are the same data. -/
def Obligations.PackInjectiveOnGrids : Prop :=
  ∀ s t : State, BlockInv s → BlockInv t → s.h = t.h → s.w = t.w →
    pack s.fb s.h.toNat s.w.toNat = pack t.fb t.h.toNat t.w.toNat → s.fb = t.fb

/-! ## The framer -/

/-- The frame layout (`30_encoding.md` R60), index by index, and the alphabet of its bytes. -/
def Obligations.FrameLayout : Prop :=
  ∀ (a : BitVec 4) (p : Bytes),
    let f := encodePacket a p
    let n := p.length
    let size : Byte := BitVec.ofNat 8 (n % 256)
    let ck := checksum ((f.drop 1).take (5 + 2 * n))
    f.length = 8 + 2 * n ∧ f[0]? = some 0x02 ∧ f[1]? = some 0x31 ∧ f[2]? = some (hexU a) ∧
    f[3]? = (hex2 size)[0]? ∧ f[4]? = (hex2 size)[1]? ∧
    (∀ (i : Nat) (b : Byte), p[i]? = some b → f[5 + 2 * i]? = (hex2 b)[0]? ∧ f[6 + 2 * i]? = (hex2 b)[1]?) ∧
    f[5 + 2 * n]? = some 0x03 ∧ f[6 + 2 * n]? = (hex2 ck)[0]? ∧ f[7 + 2 * n]? = (hex2 ck)[1]? ∧
    ∀ b ∈ f, b = 0x02 ∨ b = 0x03 ∨ ∃ d : BitVec 4, b = hexU d

/-- The delimiters (`30_encoding.md` R66): STX stands at index 0 and nowhere else, ETX at index `5 + 2N` and nowhere else,
and every other byte is `0x30` or greater. -/
def Obligations.DelimitersOccurOnce : Prop :=
  ∀ (a : BitVec 4) (p : Bytes) (i : Nat) (b : Byte), (encodePacket a p)[i]? = some b →
    (b = 0x02 ↔ i = 0) ∧ (b = 0x03 ↔ i = 5 + 2 * p.length) ∧ (i ≠ 0 → i ≠ 5 + 2 * p.length → 0x30 ≤ b.toNat)

/-- The hex digits (`30_encoding.md` R61, R62). -/
def Obligations.HexDigitsAreUppercaseAscii : Prop :=
  (∀ n : BitVec 4, (n.toNat ≤ 9 → (hexU n).toNat = 0x30 + n.toNat) ∧
    (10 ≤ n.toNat → (hexU n).toNat = 0x41 + (n.toNat - 10))) ∧
  ∀ v : Byte, hex2 v = [hexU (BitVec.ofNat 4 (v.toNat / 16)), hexU (BitVec.ofNat 4 (v.toNat % 16))]

/-- The checksum (`41_packet_framer.md` R92): the formula, the invariant of the source, the corner of a sum that is a
multiple of 256, and (the rule's derived law) an 8-bit accumulator that wraps on every addition gives the same result. -/
def Obligations.ChecksumMakesBodySumToZero : Prop :=
  ∀ b : Bytes, (checksum b).toNat = (256 - (b.map BitVec.toNat).sum % 256) % 256 ∧
    ((b.map BitVec.toNat).sum + (checksum b).toNat) % 256 = 0 ∧
    ((b.map BitVec.toNat).sum % 256 = 0 → checksum b = 0) ∧
    checksum b = 0 - b.foldl (fun acc x => acc + x) 0

/-- `DECODE` inverts `ENCODE`, and every host operation decodes from its own encoding: for every well-formed instruction,
with every operand at every value. -/
def Obligations.DecodeInvertsEncode : Prop :=
  ∀ i : Instr, i.wellFormed = true → ∃ bytes, encode i = .ok bytes ∧ decode i.port bytes = .ok i

/-- `DECODE` accepts nothing but frames (`41_packet_framer.md` R98): bytes it accepts are the encoding of what it answers. -/
def Obligations.DecodeAcceptsOnlyFrames : Prop :=
  ∀ (f : Bytes) (i : Instr), decode .wire f = .ok i → i.wellFormed = true ∧ encode i = .ok f

/-- The operation codes (`30_encoding.md` R70, R69): the code selects the operation, the operands are the listed signals,
other signals are ignored, and no code is rejected; the response codes. -/
def Obligations.OperationCodesSelectOperations : Prop :=
  ∀ p : PortSignals,
    (p.op.toNat = 0 → decodeSignals p = .configure p.addr p.h p.w p.baud p.margin) ∧
    (p.op.toNat = 1 → decodeSignals p = .setpix p.row p.col p.v) ∧
    (p.op.toNat = 2 → decodeSignals p = .getpix p.row p.col) ∧
    (p.op.toNat = 3 → decodeSignals p = .send) ∧ p.op.toNat ≤ 3 ∧
    ∀ s : State, (responseOutputs s).2 = s.rdata ∧ (responseOutputs s).1 = (match s.resp with
      | .ok => 0b00 | .refused => 0b01 | .configError => 0b10 | .channelError => 0b11)

/-- Words written out from the spec's encoding (`30_encoding.md` R70, in the model's bus layout, log 9) decode to the
operations they stand for: operation 1 of test program P1, operation 2 of P5, a GETPIX of no program with operands at and
across a byte's bound, operation 10 of P1 (`95_test_vectors.md` Part 3); and so does the frame of Scenario A. -/
def Obligations.SampleWordsDecode : Prop :=
  decode .host [0x00, 0x02, 0x08, 0x00, 0x01, 0x00, 0x80, 0x25, 0x00, 0x00, 0x14, 0x00, 0x00, 0x00, 0, 0, 0, 0, 0]
    = .ok (.configure 2 8 1 9600 20) ∧
  decode .host [0x01, 0, 0, 0, 0, 0, 0, 0, 0, 0, 0, 0, 0, 0, 0x0F, 0x00, 0x7F, 0x00, 0x01] = .ok (.setpix 15 127 true) ∧
  decode .host [0x02, 0, 0, 0, 0, 0, 0, 0, 0, 0, 0, 0, 0, 0, 0xFF, 0xFF, 0x00, 0x01, 0x00]
    = .ok (.getpix 65535 256) ∧
  decode .host [0x03, 0, 0, 0, 0, 0, 0, 0, 0, 0, 0, 0, 0, 0, 0, 0, 0, 0, 0] = .ok .send ∧
  decode .wire [0x02, 0x31, 0x32, 0x30, 0x31, 0x46, 0x46, 0x03, 0x41, 0x44] = .ok (.frame 2 [0xFF])

/-! ## The interval -/

/-- `INTERVAL_TICKS` (`42_transmission_scheduler.md` R110): the formula; it is the least whole number of ticks that is not
shorter than the source's interval; it is never 0, and it is one constant from CONFIGURE to reset. -/
def Obligations.IntervalIsLeastWholeNumberOfTicks : Prop :=
  (∀ s : State, intervalTicks s =
    (10 * (8 + 2 * (s.w.toNat * ((s.h.toNat + 7) / 8))) * Config.tickHz + s.baud.toNat - 1) / s.baud.toNat
      + s.margin.toNat) ∧
  (∀ hz l baud margin : Nat, 0 < baud →
    10 * l * hz + baud * margin ≤ baud * intervalOf hz l baud margin ∧
    ∀ n, 10 * l * hz + baud * margin ≤ baud * n → intervalOf hz l baud margin ≤ n) ∧
  (∀ s : State, configured s → 1 ≤ intervalTicks s) ∧
  (∀ s t : State, s.mode ≠ .unconf → turn s ≠ .reset → step s = .next t → intervalTicks t = intervalTicks s)

/-! ## Host software -/

/-- LOADFRAME (`44_host_software.md` R162): its SETPIX operations, in a configured idle block, leave the frame buffer
holding the grid, and change nothing but the frame buffer and the response. -/
def Obligations.LoadFrameLoadsGrid : Prop :=
  ∀ (s : State) (g : PixelGrid), BlockInv s → s.mode = .idle → portBusy s = false →
    ∃ t, execAll (loadFrame s.h.toNat s.w.toNat g) s = .next t ∧ t = { s with fb := t.fb, resp := .ok } ∧
      ∀ r c, r < s.h.toNat → c < s.w.toNat → readCell t r c = gridCell g r c

/-- Roll completeness (`44_host_software.md` R163): exactly `H` frames; in the frame of shift `s`, row `r` is `new[r]` below
`s` and `old[r - s]` from there on; the last frame is `new`. -/
def Obligations.RollUncoversNewFrame : Prop :=
  ∀ (old new : PixelGrid), old.length = new.length →
    (rollTransition old new).length = new.length ∧
    (∀ s, 1 ≤ s → s ≤ new.length →
      ∃ f, (rollTransition old new)[s - 1]? = some f ∧ f.length = new.length ∧
        (∀ r, r < s → f[r]? = new[r]?) ∧ (∀ r, s ≤ r → r < new.length → f[r]? = old[r - s]?) ∧
        (s = new.length → f = new))

/-- Scroll (`44_host_software.md` R164): `ceil((bw + W) / step) + 1` frames, each of them the `W`-wide window of the padded
bitmap at its offset; the offsets are the multiples of `step` below `bw + W`, and then `bw + W`; the first frame and the
last are all-unlit. -/
def Obligations.ScrollCrossesThePanel : Prop :=
  ∀ (bitmap : PixelGrid) (bw w st : Nat), 0 < st → 0 < w → (∀ row ∈ bitmap, row.length = bw) →
    (scroll bitmap bw w st).length = (bw + w + st - 1) / st + 1 ∧
    (∀ j, j * st < bw + w → (scrollOffsets bw w st)[j]? = some (j * st)) ∧
    (scrollOffsets bw w st).getLast? = some (bw + w) ∧
    (∀ (j offset : Nat) (f : PixelGrid), (scrollOffsets bw w st)[j]? = some offset →
      (scroll bitmap bw w st)[j]? = some f → f.length = bitmap.length ∧
      ∀ r c, r < bitmap.length → c < w →
        gridCell f r c = (if w ≤ offset + c ∧ offset + c < w + bw then gridCell bitmap r (offset + c - w) else false)) ∧
    (scroll bitmap bw w st).head? = some (blankGrid bitmap.length w) ∧
    (scroll bitmap bw w st).getLast? = some (blankGrid bitmap.length w)

/-- Dedupe (`44_host_software.md` R165): the longest subsequence with no two consecutive equal elements, with the same
elements as its input; idempotent, never longer, and empty exactly on the empty input. -/
def Obligations.DedupeCollapsesRuns : Prop :=
  ∀ x : List Bytes, dedupe (dedupe x) = dedupe x ∧ (dedupe x).length ≤ x.length ∧
    (dedupe x).IsChain (· ≠ ·) ∧ (dedupe x ≠ [] ↔ x ≠ []) ∧ List.Sublist (dedupe x) x ∧
    (∀ y : List Bytes, List.Sublist y x → y.IsChain (· ≠ ·) → y.length ≤ (dedupe x).length) ∧
    ∀ e, e ∈ dedupe x ↔ e ∈ x

/-- A failed SEND ends the request (`44_host_software.md` R168, `42_transmission_scheduler.md` R120; the loop of driver and
block, log 24): when the channel fails a transaction of the frame being sent, the block is in `FAULT`, the driver reports
`CHANNEL_ERROR` to its caller, DisplayState keeps its last committed value, and in no run that follows is any operation
issued or either of them changed, until the next request. -/
def Obligations.FailedSendStopsHost : Prop :=
  ∀ (d : HostDriver) (m : Mode), BlockInv d.block → d.report = none → d.waiting = true → d.block.hostOps = [] →
    m = .tx ∨ m = .flush → transaction m .err d.block →
    ∃ e, systemStep d = .next e ∧ e.block.mode = .fault ∧ e.report = some (.failed .channelError) ∧
      e.shown = d.shown ∧ e.operations = [] ∧ e.frames = [] ∧
      ∀ k, ∃ f, systemRun k e = .next f ∧ f.report = e.report ∧ f.shown = d.shown ∧ f.block.hostOps = []

/-- DisplayState is committed only by a complete request (`44_host_software.md` R166 to R168; log 24): however long the
request has run, either DisplayState is what it was before, or the request is delivered, DisplayState is its target, and
the block has flushed a packet for every frame of the request (none is dropped by `dedupe`, log 23). -/
def Obligations.DisplayStateCommittedOnlyWhenAllSent : Prop :=
  ∀ (d : HostDriver) (r : Report) (bitmap : PixelGrid) (bw st k : Nat) (animate : Bool) (e : HostDriver),
    BlockInv d.block → d.report = some r → d.block.hostOps = [] → d.block.sendPending = false →
    systemRun k (beginDisplay bitmap bw st animate d) = .next e →
    (e.report ≠ some .delivered → e.shown = d.shown) ∧
    (e.report = some .delivered → e.shown = displayTarget bitmap bw d.h d.w ∧
      packetsFlushed e.block.trace = packetsFlushed d.block.trace
        + (displayFrames d.shown bitmap bw d.h d.w st animate).length)

end
end

