-- ==== Sys2Proof/Laws/Codec.lean ====
section
/-! SUPPORT. The small laws of the packer and the framer: lengths, digits, and that the two-digit form reads back. -/

namespace Sys2Proof.Machine

theorem unhex1_hexU (n : BitVec 4) : unhex1 (hexU n) = some n := by revert n; decide

theorem hexU_ge (n : BitVec 4) : 0x30 ≤ (hexU n).toNat := by revert n; decide

theorem hexU_le (n : BitVec 4) : (hexU n).toNat ≤ 0x46 := by revert n; decide

theorem hexU_of_unhex1 {b : Byte} {n : BitVec 4} (h : unhex1 b = some n) : hexU n = b := by
  revert b n; decide

theorem highNibble_lowNibble (v : Byte) : BitVec.ofNat 8 (16 * (highNibble v).toNat + (lowNibble v).toNat) = v := by
  revert v; decide

theorem highNibble_ofNat (hi lo : BitVec 4) : highNibble (BitVec.ofNat 8 (16 * hi.toNat + lo.toNat)) = hi := by
  revert hi lo; decide

theorem lowNibble_ofNat (hi lo : BitVec 4) : lowNibble (BitVec.ofNat 8 (16 * hi.toNat + lo.toNat)) = lo := by
  revert hi lo; decide

/-- A byte's two digits read back as the byte. -/
theorem unhex2_hex2 (v : Byte) : unhex2 (hexU (highNibble v)) (hexU (lowNibble v)) = some v := by
  simp only [unhex2, unhex1_hexU, highNibble_lowNibble]

/-- Two characters that read as a byte are its two digits. -/
theorem hex2_of_unhex2 {x y v : Byte} (h : unhex2 x y = some v) : hex2 v = [x, y] := by
  unfold unhex2 at h
  cases hx : unhex1 x <;> cases hy : unhex1 y <;> simp only [hx, hy, reduceCtorEq, Option.some.injEq] at h
  subst h
  simp only [hex2, highNibble_ofNat, lowNibble_ofNat, hexU_of_unhex1 hx, hexU_of_unhex1 hy]

@[simp] theorem hex2_length (v : Byte) : (hex2 v).length = 2 := rfl

@[simp] theorem payloadField_nil : payloadField [] = [] := rfl

@[simp] theorem payloadField_cons (v : Byte) (p : Bytes) : payloadField (v :: p) = hex2 v ++ payloadField p := rfl

@[simp] theorem payloadField_length (p : Bytes) : (payloadField p).length = 2 * p.length := by
  induction p with
  | nil => rfl
  | cons v p ih => simp [ih]; omega

@[simp] theorem resolutionField_length (n : Nat) : (resolutionField n).length = 2 := rfl

@[simp] theorem body_length (a : BitVec 4) (p : Bytes) : (body a p).length = 5 + 2 * p.length := by
  simp [body]; omega

@[simp] theorem encodePacket_length (a : BitVec 4) (p : Bytes) : (encodePacket a p).length = 8 + 2 * p.length := by
  simp [encodePacket]; omega

/-- A payload field reads back as its payload. -/
theorem unhexPairs_payloadField (p : Bytes) : unhexPairs (payloadField p) = some p := by
  induction p with
  | nil => rfl
  | cons v p ih =>
    simp only [payloadField_cons, hex2, List.cons_append, List.nil_append, unhexPairs, unhex2_hex2, ih]

/-- Characters that read as a payload are its payload field. -/
theorem payloadField_of_unhexPairs {cs : Bytes} {p : Bytes} (h : unhexPairs cs = some p) : payloadField p = cs := by
  fun_induction unhexPairs cs generalizing p with
  | case1 => cases h; rfl
  | case2 => cases h
  | case3 x y rest v vs hvs hv ih =>
    cases h
    simp [hex2_of_unhex2 hv, ih hvs]
  | case4 => cases h

@[simp] theorem pack_length (fb : Memory) (h w : Nat) : (pack fb h w).length = w * groups h := by
  simp [pack, List.length_flatMap]

/-- The packet START stores has length `L` (`10_state.md` R15). -/
@[simp] theorem nextPacket_length (s : State) : (nextPacket s).length = packetLength s := by
  simp [nextPacket, payload, packetLength, packetLengthOf, payloadLengthOf]

theorem groups_pos {h : Nat} (hh : 0 < h) : 0 < groups h := by unfold groups; omega

/-- The checksum makes the sum a multiple of 256 (`41_packet_framer.md` R92). -/
theorem checksum_toNat (b : Bytes) : (checksum b).toNat = (256 - byteSum b % 256) % 256 := by
  simp only [checksum, BitVec.toNat_ofNat]; omega

end Sys2Proof.Machine
end

