-- ==== Sys2Proof/Laws/Memory.lean ====
section
/-! SUPPORT. The laws of the frame buffer as data: what a read after a write gives, that a write keeps the canonical form,
and that equal contents are equal data. -/

namespace Sys2Proof.Machine

theorem cellKey_div (r c : Nat) (hc : c < 65536) : cellKey r c / 65536 = r := by
  unfold cellKey; omega

theorem cellKey_mod (r c : Nat) (hc : c < 65536) : cellKey r c % 65536 = c := by
  unfold cellKey; omega

theorem cellKey_injective {r c r' c' : Nat} (hc : c < 65536) (hc' : c' < 65536)
    (h : cellKey r c = cellKey r' c') : r = r' ∧ c = c' := by
  unfold cellKey at h; omega

theorem cellKey_of_div_mod (k : Nat) : cellKey (k / 65536) (k % 65536) = k := by
  unfold cellKey; omega

theorem wf_nil : Memory.wf [] := by simp [Memory.wf]

theorem wf_tail {e : Nat × Bool} {m : Memory} (h : Memory.wf (e :: m)) : Memory.wf m :=
  ⟨(List.pairwise_cons.1 h.1).2, fun x hx => h.2 x (List.mem_cons_of_mem _ hx)⟩

theorem wf_head_lt {e x : Nat × Bool} {m : Memory} (h : Memory.wf (e :: m)) (hx : x ∈ m) : e.1 < x.1 :=
  (List.pairwise_cons.1 h.1).1 x hx

theorem wf_cons {e : Nat × Bool} {m : Memory} (he : e.2 ≠ Memory.unlisted) (hlt : ∀ x ∈ m, e.1 < x.1)
    (h : Memory.wf m) : Memory.wf (e :: m) :=
  ⟨List.pairwise_cons.2 ⟨hlt, h.1⟩, by
    intro x hx
    rcases List.mem_cons.1 hx with rfl | hx
    · exact he
    · exact h.2 x hx⟩

/-- A cell below every listed key reads as unlisted. -/
theorem read_of_lt {m : Memory} {k : Nat} (h : ∀ x ∈ m, k < x.1) : Memory.read m k = Memory.unlisted := by
  induction m with
  | nil => rfl
  | cons e m ih =>
    have he := h e (List.mem_cons_self ..)
    simp only [Memory.read, if_neg (Nat.ne_of_gt he)]
    exact ih fun x hx => h x (List.mem_cons_of_mem _ hx)

theorem read_entry_append (k : Nat) (v : Bool) (m : Memory) (j : Nat)
    (h : ∀ x ∈ m, k < x.1) :
    Memory.read (Memory.entry k v ++ m) j = if k = j then v else Memory.read m j := by
  unfold Memory.entry
  split
  · rename_i hv
    by_cases hj : k = j
    · subst hj; simp [hv, read_of_lt h]
    · simp [hj]
  · simp [Memory.read]

/-- The keys a write can list: those listed before, and the key written. -/
theorem mem_write {m : Memory} {k : Nat} {v : Bool} {x : Nat × Bool} (hx : x ∈ Memory.write m k v) :
    x = (k, v) ∨ x ∈ m := by
  have entry : ∀ {y}, y ∈ Memory.entry k v → y = (k, v) := by
    intro y hy
    unfold Memory.entry at hy
    split at hy <;> simp_all
  induction m with
  | nil => exact .inl (entry hx)
  | cons e m ih =>
    simp only [Memory.write] at hx
    split at hx
    · rcases List.mem_append.1 hx with h | h
      · exact .inl (entry h)
      · exact .inr h
    · split at hx
      · rcases List.mem_append.1 hx with h | h
        · exact .inl (entry h)
        · exact .inr (List.mem_cons_of_mem _ h)
      · rcases List.mem_cons.1 hx with rfl | h
        · exact .inr (List.mem_cons_self ..)
        · rcases ih h with h | h
          · exact .inl h
          · exact .inr (List.mem_cons_of_mem _ h)

theorem wf_entry_append {k : Nat} {v : Bool} {m : Memory} (hlt : ∀ x ∈ m, k < x.1) (h : Memory.wf m) :
    Memory.wf (Memory.entry k v ++ m) := by
  unfold Memory.entry
  split
  · simpa using h
  · rename_i hv
    exact wf_cons hv hlt h

/-- A write keeps the canonical form. -/
theorem write_wf {m : Memory} (k : Nat) (v : Bool) (h : Memory.wf m) : Memory.wf (Memory.write m k v) := by
  induction m with
  | nil => simpa [Memory.write] using wf_entry_append (k := k) (v := v) (m := []) (by simp) wf_nil
  | cons e m ih =>
    simp only [Memory.write]
    split
    · rename_i hk
      refine wf_entry_append (fun x hx => ?_) h
      rcases List.mem_cons.1 hx with rfl | hx
      · exact hk
      · exact Nat.lt_trans hk (wf_head_lt h hx)
    · split
      · rename_i hk
        exact wf_entry_append (fun x hx => hk ▸ wf_head_lt h hx) (wf_tail h)
      · rename_i h1 h2
        refine wf_cons (h.2 e (List.mem_cons_self ..)) (fun x hx => ?_) (ih (wf_tail h))
        rcases mem_write hx with rfl | hx
        · simp only; omega
        · exact wf_head_lt h hx

/-- Reading after a write: the value written at its key, and every other cell as before. -/
theorem read_write {m : Memory} (k : Nat) (v : Bool) (j : Nat) (h : Memory.wf m) :
    Memory.read (Memory.write m k v) j = if k = j then v else Memory.read m j := by
  induction m with
  | nil => simpa [Memory.write] using read_entry_append k v [] j (by simp)
  | cons e m ih =>
    simp only [Memory.write]
    split
    · rename_i hk
      exact read_entry_append k v (e :: m) j fun x hx => by
        rcases List.mem_cons.1 hx with rfl | hx
        · exact hk
        · exact Nat.lt_trans hk (wf_head_lt h hx)
    · split
      · rename_i hk
        rw [read_entry_append k v m j fun x hx => hk ▸ wf_head_lt h hx]
        by_cases hj : k = j
        · simp [hj]
        · simp [hj, Memory.read, ← hk]
      · rename_i h1 h2
        simp only [Memory.read, ih (wf_tail h)]
        by_cases hj : k = j
        · subst hj; simp [Ne.symm h2]
        · simp [hj]

/-- A listed cell reads as what is listed. -/
theorem read_of_mem {m : Memory} (h : Memory.wf m) {e : Nat × Bool} (he : e ∈ m) : Memory.read m e.1 = e.2 := by
  induction m with
  | nil => cases he
  | cons x m ih =>
    rcases List.mem_cons.1 he with rfl | he
    · simp [Memory.read]
    · simp only [Memory.read, if_neg (Nat.ne_of_lt (wf_head_lt h he))]
      exact ih (wf_tail h) he

/-- A cell that reads otherwise than unlisted is listed. -/
theorem mem_of_read {m : Memory} {k : Nat} (hr : Memory.read m k ≠ Memory.unlisted) :
    ∃ e ∈ m, e.1 = k := by
  induction m with
  | nil => exact absurd rfl hr
  | cons x m ih =>
    by_cases hx : x.1 = k
    · exact ⟨x, List.mem_cons_self .., hx⟩
    · simp only [Memory.read, if_neg hx] at hr
      obtain ⟨e, he, hk⟩ := ih hr
      exact ⟨e, List.mem_cons_of_mem _ he, hk⟩

/-- Canonical memories with the same contents are the same data. -/
theorem memory_ext {m m' : Memory} (h : Memory.wf m) (h' : Memory.wf m')
    (hr : ∀ k, Memory.read m k = Memory.read m' k) : m = m' := by
  induction m generalizing m' with
  | nil =>
    cases m' with
    | nil => rfl
    | cons y m' => exact absurd (hr y.1 ▸ read_of_mem h' (List.mem_cons_self ..)).symm (h'.2 y (List.mem_cons_self ..))
  | cons x m ih =>
    have hx : Memory.read m' x.1 = x.2 := hr x.1 ▸ read_of_mem h (List.mem_cons_self ..)
    have hxu := h.2 x (List.mem_cons_self ..)
    cases m' with
    | nil => exact absurd hx.symm hxu
    | cons y m' =>
      have hy : Memory.read (x :: m) y.1 = y.2 := (hr y.1).trans (read_of_mem h' (List.mem_cons_self ..))
      have hkey : x.1 = y.1 := by
        obtain ⟨e, he, hk⟩ := mem_of_read (hx ▸ hxu : Memory.read (y :: m') x.1 ≠ _)
        obtain ⟨d, hd, hk'⟩ := mem_of_read (hy ▸ h'.2 y (List.mem_cons_self ..) : Memory.read (x :: m) y.1 ≠ _)
        have h1 : y.1 ≤ x.1 := by
          rcases List.mem_cons.1 he with rfl | he
          · omega
          · have := wf_head_lt h' he; omega
        have h2 : x.1 ≤ y.1 := by
          rcases List.mem_cons.1 hd with rfl | hd
          · omega
          · have := wf_head_lt h hd; omega
        omega
      have hval : x.2 = y.2 := by
        rw [← hx, hkey]; exact read_of_mem h' (List.mem_cons_self ..)
      have hxy : x = y := Prod.ext hkey hval
      subst hxy
      congr 1
      refine ih (wf_tail h) (wf_tail h') fun k => ?_
      have hk := hr k
      by_cases hxk : x.1 = k
      · subst hxk
        rw [read_of_lt fun e he => wf_head_lt h he, read_of_lt fun e he => wf_head_lt h' he]
      · simpa [Memory.read, hxk] using hk

/-- Writing the value a cell already holds changes nothing (`43_host_operations.md` R142). -/
theorem write_same_value {m : Memory} (h : Memory.wf m) {k : Nat} {v : Bool} (hv : Memory.read m k = v) :
    Memory.write m k v = m :=
  memory_ext (write_wf k v h) h fun j => by
    rw [read_write k v j h]
    split
    · rename_i hk; rw [← hk, hv]
    · rfl

end Sys2Proof.Machine
end

