-- ==== Sys2Proof/Laws/State.lean ====
section
/-! SUPPORT. One lemma per field per shared update, true by `rfl`: what each operation writes and what it leaves. -/

namespace Sys2Proof.Machine

@[simp] theorem respond_mode (code : Resp) (s : State) : (respond code s).mode = s.mode := rfl
@[simp] theorem respond_addr (code : Resp) (s : State) : (respond code s).addr = s.addr := rfl
@[simp] theorem respond_h (code : Resp) (s : State) : (respond code s).h = s.h := rfl
@[simp] theorem respond_w (code : Resp) (s : State) : (respond code s).w = s.w := rfl
@[simp] theorem respond_baud (code : Resp) (s : State) : (respond code s).baud = s.baud := rfl
@[simp] theorem respond_margin (code : Resp) (s : State) : (respond code s).margin = s.margin := rfl
@[simp] theorem respond_fb (code : Resp) (s : State) : (respond code s).fb = s.fb := rfl
@[simp] theorem respond_pkt (code : Resp) (s : State) : (respond code s).pkt = s.pkt := rfl
@[simp] theorem respond_txi (code : Resp) (s : State) : (respond code s).txi = s.txi := rfl
@[simp] theorem respond_timer (code : Resp) (s : State) : (respond code s).timer = s.timer := rfl
@[simp] theorem respond_err (code : Resp) (s : State) : (respond code s).err = s.err := rfl
@[simp] theorem respond_refused (code : Resp) (s : State) : (respond code s).refused = s.refused := rfl
@[simp] theorem respond_resp (code : Resp) (s : State) : (respond code s).resp = code := rfl
@[simp] theorem respond_rdata (code : Resp) (s : State) : (respond code s).rdata = s.rdata := rfl
@[simp] theorem respond_sendPending (code : Resp) (s : State) : (respond code s).sendPending = s.sendPending := rfl
@[simp] theorem respond_now (code : Resp) (s : State) : (respond code s).now = s.now := rfl
@[simp] theorem respond_trace (code : Resp) (s : State) : (respond code s).trace = s.trace := rfl
@[simp] theorem respond_hostOps (code : Resp) (s : State) : (respond code s).hostOps = s.hostOps := rfl
@[simp] theorem respond_answers (code : Resp) (s : State) : (respond code s).answers = s.answers := rfl
@[simp] theorem respond_turns (code : Resp) (s : State) : (respond code s).turns = s.turns := rfl

@[simp] theorem respondData_mode (code : Resp) (bit : Bool) (s : State) : (respondData code bit s).mode = s.mode := rfl
@[simp] theorem respondData_addr (code : Resp) (bit : Bool) (s : State) : (respondData code bit s).addr = s.addr := rfl
@[simp] theorem respondData_h (code : Resp) (bit : Bool) (s : State) : (respondData code bit s).h = s.h := rfl
@[simp] theorem respondData_w (code : Resp) (bit : Bool) (s : State) : (respondData code bit s).w = s.w := rfl
@[simp] theorem respondData_baud (code : Resp) (bit : Bool) (s : State) : (respondData code bit s).baud = s.baud := rfl
@[simp] theorem respondData_margin (code : Resp) (bit : Bool) (s : State) : (respondData code bit s).margin = s.margin := rfl
@[simp] theorem respondData_fb (code : Resp) (bit : Bool) (s : State) : (respondData code bit s).fb = s.fb := rfl
@[simp] theorem respondData_pkt (code : Resp) (bit : Bool) (s : State) : (respondData code bit s).pkt = s.pkt := rfl
@[simp] theorem respondData_txi (code : Resp) (bit : Bool) (s : State) : (respondData code bit s).txi = s.txi := rfl
@[simp] theorem respondData_timer (code : Resp) (bit : Bool) (s : State) : (respondData code bit s).timer = s.timer := rfl
@[simp] theorem respondData_err (code : Resp) (bit : Bool) (s : State) : (respondData code bit s).err = s.err := rfl
@[simp] theorem respondData_refused (code : Resp) (bit : Bool) (s : State) : (respondData code bit s).refused = s.refused := rfl
@[simp] theorem respondData_resp (code : Resp) (bit : Bool) (s : State) : (respondData code bit s).resp = code := rfl
@[simp] theorem respondData_rdata (code : Resp) (bit : Bool) (s : State) : (respondData code bit s).rdata = bit := rfl
@[simp] theorem respondData_sendPending (code : Resp) (bit : Bool) (s : State) : (respondData code bit s).sendPending = s.sendPending := rfl
@[simp] theorem respondData_now (code : Resp) (bit : Bool) (s : State) : (respondData code bit s).now = s.now := rfl
@[simp] theorem respondData_trace (code : Resp) (bit : Bool) (s : State) : (respondData code bit s).trace = s.trace := rfl
@[simp] theorem respondData_hostOps (code : Resp) (bit : Bool) (s : State) : (respondData code bit s).hostOps = s.hostOps := rfl
@[simp] theorem respondData_answers (code : Resp) (bit : Bool) (s : State) : (respondData code bit s).answers = s.answers := rfl
@[simp] theorem respondData_turns (code : Resp) (bit : Bool) (s : State) : (respondData code bit s).turns = s.turns := rfl

@[simp] theorem refuse_mode (s : State) : (refuse s).mode = s.mode := rfl
@[simp] theorem refuse_addr (s : State) : (refuse s).addr = s.addr := rfl
@[simp] theorem refuse_h (s : State) : (refuse s).h = s.h := rfl
@[simp] theorem refuse_w (s : State) : (refuse s).w = s.w := rfl
@[simp] theorem refuse_baud (s : State) : (refuse s).baud = s.baud := rfl
@[simp] theorem refuse_margin (s : State) : (refuse s).margin = s.margin := rfl
@[simp] theorem refuse_fb (s : State) : (refuse s).fb = s.fb := rfl
@[simp] theorem refuse_pkt (s : State) : (refuse s).pkt = s.pkt := rfl
@[simp] theorem refuse_txi (s : State) : (refuse s).txi = s.txi := rfl
@[simp] theorem refuse_timer (s : State) : (refuse s).timer = s.timer := rfl
@[simp] theorem refuse_err (s : State) : (refuse s).err = s.err := rfl
@[simp] theorem refuse_refused (s : State) : (refuse s).refused = true := rfl
@[simp] theorem refuse_resp (s : State) : (refuse s).resp = .refused := rfl
@[simp] theorem refuse_rdata (s : State) : (refuse s).rdata = s.rdata := rfl
@[simp] theorem refuse_sendPending (s : State) : (refuse s).sendPending = s.sendPending := rfl
@[simp] theorem refuse_now (s : State) : (refuse s).now = s.now := rfl
@[simp] theorem refuse_trace (s : State) : (refuse s).trace = s.trace := rfl
@[simp] theorem refuse_hostOps (s : State) : (refuse s).hostOps = s.hostOps := rfl
@[simp] theorem refuse_answers (s : State) : (refuse s).answers = s.answers := rfl
@[simp] theorem refuse_turns (s : State) : (refuse s).turns = s.turns := rfl

@[simp] theorem refuseData_mode (s : State) : (refuseData s).mode = s.mode := rfl
@[simp] theorem refuseData_addr (s : State) : (refuseData s).addr = s.addr := rfl
@[simp] theorem refuseData_h (s : State) : (refuseData s).h = s.h := rfl
@[simp] theorem refuseData_w (s : State) : (refuseData s).w = s.w := rfl
@[simp] theorem refuseData_baud (s : State) : (refuseData s).baud = s.baud := rfl
@[simp] theorem refuseData_margin (s : State) : (refuseData s).margin = s.margin := rfl
@[simp] theorem refuseData_fb (s : State) : (refuseData s).fb = s.fb := rfl
@[simp] theorem refuseData_pkt (s : State) : (refuseData s).pkt = s.pkt := rfl
@[simp] theorem refuseData_txi (s : State) : (refuseData s).txi = s.txi := rfl
@[simp] theorem refuseData_timer (s : State) : (refuseData s).timer = s.timer := rfl
@[simp] theorem refuseData_err (s : State) : (refuseData s).err = s.err := rfl
@[simp] theorem refuseData_refused (s : State) : (refuseData s).refused = true := rfl
@[simp] theorem refuseData_resp (s : State) : (refuseData s).resp = .refused := rfl
@[simp] theorem refuseData_rdata (s : State) : (refuseData s).rdata = false := rfl
@[simp] theorem refuseData_sendPending (s : State) : (refuseData s).sendPending = s.sendPending := rfl
@[simp] theorem refuseData_now (s : State) : (refuseData s).now = s.now := rfl
@[simp] theorem refuseData_trace (s : State) : (refuseData s).trace = s.trace := rfl
@[simp] theorem refuseData_hostOps (s : State) : (refuseData s).hostOps = s.hostOps := rfl
@[simp] theorem refuseData_answers (s : State) : (refuseData s).answers = s.answers := rfl
@[simp] theorem refuseData_turns (s : State) : (refuseData s).turns = s.turns := rfl

@[simp] theorem raiseError_mode (code : ErrCode) (s : State) : (raiseError code s).mode = .fault := rfl
@[simp] theorem raiseError_addr (code : ErrCode) (s : State) : (raiseError code s).addr = s.addr := rfl
@[simp] theorem raiseError_h (code : ErrCode) (s : State) : (raiseError code s).h = s.h := rfl
@[simp] theorem raiseError_w (code : ErrCode) (s : State) : (raiseError code s).w = s.w := rfl
@[simp] theorem raiseError_baud (code : ErrCode) (s : State) : (raiseError code s).baud = s.baud := rfl
@[simp] theorem raiseError_margin (code : ErrCode) (s : State) : (raiseError code s).margin = s.margin := rfl
@[simp] theorem raiseError_fb (code : ErrCode) (s : State) : (raiseError code s).fb = s.fb := rfl
@[simp] theorem raiseError_pkt (code : ErrCode) (s : State) : (raiseError code s).pkt = s.pkt := rfl
@[simp] theorem raiseError_txi (code : ErrCode) (s : State) : (raiseError code s).txi = s.txi := rfl
@[simp] theorem raiseError_timer (code : ErrCode) (s : State) : (raiseError code s).timer = s.timer := rfl
@[simp] theorem raiseError_err (code : ErrCode) (s : State) : (raiseError code s).err = code := rfl
@[simp] theorem raiseError_refused (code : ErrCode) (s : State) : (raiseError code s).refused = s.refused := rfl
@[simp] theorem raiseError_resp (code : ErrCode) (s : State) : (raiseError code s).resp = code.response := rfl
@[simp] theorem raiseError_rdata (code : ErrCode) (s : State) : (raiseError code s).rdata = s.rdata := rfl
@[simp] theorem raiseError_sendPending (code : ErrCode) (s : State) : (raiseError code s).sendPending = false := rfl
@[simp] theorem raiseError_now (code : ErrCode) (s : State) : (raiseError code s).now = s.now := rfl
@[simp] theorem raiseError_trace (code : ErrCode) (s : State) : (raiseError code s).trace = s.trace := rfl
@[simp] theorem raiseError_hostOps (code : ErrCode) (s : State) : (raiseError code s).hostOps = s.hostOps := rfl
@[simp] theorem raiseError_answers (code : ErrCode) (s : State) : (raiseError code s).answers = s.answers := rfl
@[simp] theorem raiseError_turns (code : ErrCode) (s : State) : (raiseError code s).turns = s.turns := rfl

@[simp] theorem record_mode (e : TraceEvent) (s : State) : (record e s).mode = s.mode := rfl
@[simp] theorem record_addr (e : TraceEvent) (s : State) : (record e s).addr = s.addr := rfl
@[simp] theorem record_h (e : TraceEvent) (s : State) : (record e s).h = s.h := rfl
@[simp] theorem record_w (e : TraceEvent) (s : State) : (record e s).w = s.w := rfl
@[simp] theorem record_baud (e : TraceEvent) (s : State) : (record e s).baud = s.baud := rfl
@[simp] theorem record_margin (e : TraceEvent) (s : State) : (record e s).margin = s.margin := rfl
@[simp] theorem record_fb (e : TraceEvent) (s : State) : (record e s).fb = s.fb := rfl
@[simp] theorem record_pkt (e : TraceEvent) (s : State) : (record e s).pkt = s.pkt := rfl
@[simp] theorem record_txi (e : TraceEvent) (s : State) : (record e s).txi = s.txi := rfl
@[simp] theorem record_timer (e : TraceEvent) (s : State) : (record e s).timer = s.timer := rfl
@[simp] theorem record_err (e : TraceEvent) (s : State) : (record e s).err = s.err := rfl
@[simp] theorem record_refused (e : TraceEvent) (s : State) : (record e s).refused = s.refused := rfl
@[simp] theorem record_resp (e : TraceEvent) (s : State) : (record e s).resp = s.resp := rfl
@[simp] theorem record_rdata (e : TraceEvent) (s : State) : (record e s).rdata = s.rdata := rfl
@[simp] theorem record_sendPending (e : TraceEvent) (s : State) : (record e s).sendPending = s.sendPending := rfl
@[simp] theorem record_now (e : TraceEvent) (s : State) : (record e s).now = s.now := rfl
@[simp] theorem record_trace (e : TraceEvent) (s : State) : (record e s).trace = s.trace ++ [e] := rfl
@[simp] theorem record_hostOps (e : TraceEvent) (s : State) : (record e s).hostOps = s.hostOps := rfl
@[simp] theorem record_answers (e : TraceEvent) (s : State) : (record e s).answers = s.answers := rfl
@[simp] theorem record_turns (e : TraceEvent) (s : State) : (record e s).turns = s.turns := rfl

@[simp] theorem writeCell_mode (r c : Nat) (v : Bool) (s : State) : (writeCell s r c v).mode = s.mode := rfl
@[simp] theorem writeCell_addr (r c : Nat) (v : Bool) (s : State) : (writeCell s r c v).addr = s.addr := rfl
@[simp] theorem writeCell_h (r c : Nat) (v : Bool) (s : State) : (writeCell s r c v).h = s.h := rfl
@[simp] theorem writeCell_w (r c : Nat) (v : Bool) (s : State) : (writeCell s r c v).w = s.w := rfl
@[simp] theorem writeCell_baud (r c : Nat) (v : Bool) (s : State) : (writeCell s r c v).baud = s.baud := rfl
@[simp] theorem writeCell_margin (r c : Nat) (v : Bool) (s : State) : (writeCell s r c v).margin = s.margin := rfl
@[simp] theorem writeCell_fb (r c : Nat) (v : Bool) (s : State) : (writeCell s r c v).fb = Memory.write s.fb (cellKey r c) v := rfl
@[simp] theorem writeCell_pkt (r c : Nat) (v : Bool) (s : State) : (writeCell s r c v).pkt = s.pkt := rfl
@[simp] theorem writeCell_txi (r c : Nat) (v : Bool) (s : State) : (writeCell s r c v).txi = s.txi := rfl
@[simp] theorem writeCell_timer (r c : Nat) (v : Bool) (s : State) : (writeCell s r c v).timer = s.timer := rfl
@[simp] theorem writeCell_err (r c : Nat) (v : Bool) (s : State) : (writeCell s r c v).err = s.err := rfl
@[simp] theorem writeCell_refused (r c : Nat) (v : Bool) (s : State) : (writeCell s r c v).refused = s.refused := rfl
@[simp] theorem writeCell_resp (r c : Nat) (v : Bool) (s : State) : (writeCell s r c v).resp = s.resp := rfl
@[simp] theorem writeCell_rdata (r c : Nat) (v : Bool) (s : State) : (writeCell s r c v).rdata = s.rdata := rfl
@[simp] theorem writeCell_sendPending (r c : Nat) (v : Bool) (s : State) : (writeCell s r c v).sendPending = s.sendPending := rfl
@[simp] theorem writeCell_now (r c : Nat) (v : Bool) (s : State) : (writeCell s r c v).now = s.now := rfl
@[simp] theorem writeCell_trace (r c : Nat) (v : Bool) (s : State) : (writeCell s r c v).trace = s.trace := rfl
@[simp] theorem writeCell_hostOps (r c : Nat) (v : Bool) (s : State) : (writeCell s r c v).hostOps = s.hostOps := rfl
@[simp] theorem writeCell_answers (r c : Nat) (v : Bool) (s : State) : (writeCell s r c v).answers = s.answers := rfl
@[simp] theorem writeCell_turns (r c : Nat) (v : Bool) (s : State) : (writeCell s r c v).turns = s.turns := rfl

@[simp] theorem tick_mode (s : State) : (tick s).mode = s.mode := rfl
@[simp] theorem tick_addr (s : State) : (tick s).addr = s.addr := rfl
@[simp] theorem tick_h (s : State) : (tick s).h = s.h := rfl
@[simp] theorem tick_w (s : State) : (tick s).w = s.w := rfl
@[simp] theorem tick_baud (s : State) : (tick s).baud = s.baud := rfl
@[simp] theorem tick_margin (s : State) : (tick s).margin = s.margin := rfl
@[simp] theorem tick_fb (s : State) : (tick s).fb = s.fb := rfl
@[simp] theorem tick_pkt (s : State) : (tick s).pkt = s.pkt := rfl
@[simp] theorem tick_txi (s : State) : (tick s).txi = s.txi := rfl
@[simp] theorem tick_timer (s : State) : (tick s).timer = s.timer - 1 := rfl
@[simp] theorem tick_err (s : State) : (tick s).err = s.err := rfl
@[simp] theorem tick_refused (s : State) : (tick s).refused = s.refused := rfl
@[simp] theorem tick_resp (s : State) : (tick s).resp = s.resp := rfl
@[simp] theorem tick_rdata (s : State) : (tick s).rdata = s.rdata := rfl
@[simp] theorem tick_sendPending (s : State) : (tick s).sendPending = s.sendPending := rfl
@[simp] theorem tick_now (s : State) : (tick s).now = s.now + 1 := rfl
@[simp] theorem tick_trace (s : State) : (tick s).trace = s.trace := rfl
@[simp] theorem tick_hostOps (s : State) : (tick s).hostOps = s.hostOps := rfl
@[simp] theorem tick_answers (s : State) : (tick s).answers = s.answers := rfl
@[simp] theorem tick_turns (s : State) : (tick s).turns = s.turns := rfl

@[simp] theorem start_mode (s : State) : (start s).mode = .tx := rfl
@[simp] theorem start_addr (s : State) : (start s).addr = s.addr := rfl
@[simp] theorem start_h (s : State) : (start s).h = s.h := rfl
@[simp] theorem start_w (s : State) : (start s).w = s.w := rfl
@[simp] theorem start_baud (s : State) : (start s).baud = s.baud := rfl
@[simp] theorem start_margin (s : State) : (start s).margin = s.margin := rfl
@[simp] theorem start_fb (s : State) : (start s).fb = s.fb := rfl
@[simp] theorem start_pkt (s : State) : (start s).pkt = nextPacket s := rfl
@[simp] theorem start_txi (s : State) : (start s).txi = 0 := rfl
@[simp] theorem start_timer (s : State) : (start s).timer = intervalTicks s := rfl
@[simp] theorem start_err (s : State) : (start s).err = s.err := rfl
@[simp] theorem start_refused (s : State) : (start s).refused = s.refused := rfl
@[simp] theorem start_resp (s : State) : (start s).resp = s.resp := rfl
@[simp] theorem start_rdata (s : State) : (start s).rdata = s.rdata := rfl
@[simp] theorem start_sendPending (s : State) : (start s).sendPending = s.sendPending := rfl
@[simp] theorem start_now (s : State) : (start s).now = s.now := rfl
@[simp] theorem start_trace (s : State) : (start s).trace = s.trace ++ [.start s.now] := rfl
@[simp] theorem start_hostOps (s : State) : (start s).hostOps = s.hostOps := rfl
@[simp] theorem start_answers (s : State) : (start s).answers = s.answers := rfl
@[simp] theorem start_turns (s : State) : (start s).turns = s.turns := rfl

@[simp] theorem resetBlock_mode (s : State) : (resetBlock s).mode = .unconf := rfl
@[simp] theorem resetBlock_addr (s : State) : (resetBlock s).addr = 0 := rfl
@[simp] theorem resetBlock_h (s : State) : (resetBlock s).h = 0 := rfl
@[simp] theorem resetBlock_w (s : State) : (resetBlock s).w = 0 := rfl
@[simp] theorem resetBlock_baud (s : State) : (resetBlock s).baud = 0 := rfl
@[simp] theorem resetBlock_margin (s : State) : (resetBlock s).margin = 0 := rfl
@[simp] theorem resetBlock_fb (s : State) : (resetBlock s).fb = [] := rfl
@[simp] theorem resetBlock_pkt (s : State) : (resetBlock s).pkt = [] := rfl
@[simp] theorem resetBlock_txi (s : State) : (resetBlock s).txi = 0 := rfl
@[simp] theorem resetBlock_timer (s : State) : (resetBlock s).timer = 0 := rfl
@[simp] theorem resetBlock_err (s : State) : (resetBlock s).err = .none := rfl
@[simp] theorem resetBlock_refused (s : State) : (resetBlock s).refused = false := rfl
@[simp] theorem resetBlock_resp (s : State) : (resetBlock s).resp = .ok := rfl
@[simp] theorem resetBlock_rdata (s : State) : (resetBlock s).rdata = false := rfl
@[simp] theorem resetBlock_sendPending (s : State) : (resetBlock s).sendPending = false := rfl
@[simp] theorem resetBlock_now (s : State) : (resetBlock s).now = s.now := rfl
@[simp] theorem resetBlock_trace (s : State) : (resetBlock s).trace = s.trace := rfl
@[simp] theorem resetBlock_hostOps (s : State) : (resetBlock s).hostOps = s.hostOps := rfl
@[simp] theorem resetBlock_answers (s : State) : (resetBlock s).answers = s.answers := rfl
@[simp] theorem resetBlock_turns (s : State) : (resetBlock s).turns = s.turns := rfl

@[simp] theorem raiseConfigurationError_mode (s : State) : (raiseConfigurationError s).mode = .fault := rfl
@[simp] theorem raiseConfigurationError_addr (s : State) : (raiseConfigurationError s).addr = s.addr := rfl
@[simp] theorem raiseConfigurationError_h (s : State) : (raiseConfigurationError s).h = s.h := rfl
@[simp] theorem raiseConfigurationError_w (s : State) : (raiseConfigurationError s).w = s.w := rfl
@[simp] theorem raiseConfigurationError_baud (s : State) : (raiseConfigurationError s).baud = s.baud := rfl
@[simp] theorem raiseConfigurationError_margin (s : State) : (raiseConfigurationError s).margin = s.margin := rfl
@[simp] theorem raiseConfigurationError_fb (s : State) : (raiseConfigurationError s).fb = s.fb := rfl
@[simp] theorem raiseConfigurationError_pkt (s : State) : (raiseConfigurationError s).pkt = s.pkt := rfl
@[simp] theorem raiseConfigurationError_txi (s : State) : (raiseConfigurationError s).txi = s.txi := rfl
@[simp] theorem raiseConfigurationError_timer (s : State) : (raiseConfigurationError s).timer = s.timer := rfl
@[simp] theorem raiseConfigurationError_err (s : State) : (raiseConfigurationError s).err = .configuration := rfl
@[simp] theorem raiseConfigurationError_refused (s : State) : (raiseConfigurationError s).refused = s.refused := rfl
@[simp] theorem raiseConfigurationError_resp (s : State) : (raiseConfigurationError s).resp = .configError := rfl
@[simp] theorem raiseConfigurationError_rdata (s : State) : (raiseConfigurationError s).rdata = s.rdata := rfl
@[simp] theorem raiseConfigurationError_sendPending (s : State) : (raiseConfigurationError s).sendPending = false := rfl
@[simp] theorem raiseConfigurationError_now (s : State) : (raiseConfigurationError s).now = s.now := rfl
@[simp] theorem raiseConfigurationError_trace (s : State) : (raiseConfigurationError s).trace = s.trace := rfl
@[simp] theorem raiseConfigurationError_hostOps (s : State) : (raiseConfigurationError s).hostOps = s.hostOps := rfl
@[simp] theorem raiseConfigurationError_answers (s : State) : (raiseConfigurationError s).answers = s.answers := rfl
@[simp] theorem raiseConfigurationError_turns (s : State) : (raiseConfigurationError s).turns = s.turns := rfl

@[simp] theorem raiseChannelError_mode (s : State) : (raiseChannelError s).mode = .fault := rfl
@[simp] theorem raiseChannelError_addr (s : State) : (raiseChannelError s).addr = s.addr := rfl
@[simp] theorem raiseChannelError_h (s : State) : (raiseChannelError s).h = s.h := rfl
@[simp] theorem raiseChannelError_w (s : State) : (raiseChannelError s).w = s.w := rfl
@[simp] theorem raiseChannelError_baud (s : State) : (raiseChannelError s).baud = s.baud := rfl
@[simp] theorem raiseChannelError_margin (s : State) : (raiseChannelError s).margin = s.margin := rfl
@[simp] theorem raiseChannelError_fb (s : State) : (raiseChannelError s).fb = s.fb := rfl
@[simp] theorem raiseChannelError_pkt (s : State) : (raiseChannelError s).pkt = s.pkt := rfl
@[simp] theorem raiseChannelError_txi (s : State) : (raiseChannelError s).txi = s.txi := rfl
@[simp] theorem raiseChannelError_timer (s : State) : (raiseChannelError s).timer = s.timer := rfl
@[simp] theorem raiseChannelError_err (s : State) : (raiseChannelError s).err = .channel := rfl
@[simp] theorem raiseChannelError_refused (s : State) : (raiseChannelError s).refused = s.refused := rfl
@[simp] theorem raiseChannelError_resp (s : State) : (raiseChannelError s).resp = .channelError := rfl
@[simp] theorem raiseChannelError_rdata (s : State) : (raiseChannelError s).rdata = s.rdata := rfl
@[simp] theorem raiseChannelError_sendPending (s : State) : (raiseChannelError s).sendPending = false := rfl
@[simp] theorem raiseChannelError_now (s : State) : (raiseChannelError s).now = s.now := rfl
@[simp] theorem raiseChannelError_trace (s : State) : (raiseChannelError s).trace = s.trace := rfl
@[simp] theorem raiseChannelError_hostOps (s : State) : (raiseChannelError s).hostOps = s.hostOps := rfl
@[simp] theorem raiseChannelError_answers (s : State) : (raiseChannelError s).answers = s.answers := rfl
@[simp] theorem raiseChannelError_turns (s : State) : (raiseChannelError s).turns = s.turns := rfl

@[simp] theorem byteAccepted_mode (b : Byte) (s : State) : (byteAccepted b s).mode = modeAfterByte (s.txi + 1) (packetLength s) s.mode := rfl
@[simp] theorem byteAccepted_addr (b : Byte) (s : State) : (byteAccepted b s).addr = s.addr := rfl
@[simp] theorem byteAccepted_h (b : Byte) (s : State) : (byteAccepted b s).h = s.h := rfl
@[simp] theorem byteAccepted_w (b : Byte) (s : State) : (byteAccepted b s).w = s.w := rfl
@[simp] theorem byteAccepted_baud (b : Byte) (s : State) : (byteAccepted b s).baud = s.baud := rfl
@[simp] theorem byteAccepted_margin (b : Byte) (s : State) : (byteAccepted b s).margin = s.margin := rfl
@[simp] theorem byteAccepted_fb (b : Byte) (s : State) : (byteAccepted b s).fb = s.fb := rfl
@[simp] theorem byteAccepted_pkt (b : Byte) (s : State) : (byteAccepted b s).pkt = s.pkt := rfl
@[simp] theorem byteAccepted_txi (b : Byte) (s : State) : (byteAccepted b s).txi = s.txi + 1 := rfl
@[simp] theorem byteAccepted_timer (b : Byte) (s : State) : (byteAccepted b s).timer = s.timer := rfl
@[simp] theorem byteAccepted_err (b : Byte) (s : State) : (byteAccepted b s).err = s.err := rfl
@[simp] theorem byteAccepted_refused (b : Byte) (s : State) : (byteAccepted b s).refused = s.refused := rfl
@[simp] theorem byteAccepted_resp (b : Byte) (s : State) : (byteAccepted b s).resp = s.resp := rfl
@[simp] theorem byteAccepted_rdata (b : Byte) (s : State) : (byteAccepted b s).rdata = s.rdata := rfl
@[simp] theorem byteAccepted_sendPending (b : Byte) (s : State) : (byteAccepted b s).sendPending = s.sendPending := rfl
@[simp] theorem byteAccepted_now (b : Byte) (s : State) : (byteAccepted b s).now = s.now := rfl
@[simp] theorem byteAccepted_trace (b : Byte) (s : State) : (byteAccepted b s).trace = s.trace ++ [.byte b s.now] := rfl
@[simp] theorem byteAccepted_hostOps (b : Byte) (s : State) : (byteAccepted b s).hostOps = s.hostOps := rfl
@[simp] theorem byteAccepted_answers (b : Byte) (s : State) : (byteAccepted b s).answers = s.answers := rfl
@[simp] theorem byteAccepted_turns (b : Byte) (s : State) : (byteAccepted b s).turns = s.turns := rfl

@[simp] theorem byteFailed_mode (b : Byte) (s : State) : (byteFailed b s).mode = .fault := rfl
@[simp] theorem byteFailed_addr (b : Byte) (s : State) : (byteFailed b s).addr = s.addr := rfl
@[simp] theorem byteFailed_h (b : Byte) (s : State) : (byteFailed b s).h = s.h := rfl
@[simp] theorem byteFailed_w (b : Byte) (s : State) : (byteFailed b s).w = s.w := rfl
@[simp] theorem byteFailed_baud (b : Byte) (s : State) : (byteFailed b s).baud = s.baud := rfl
@[simp] theorem byteFailed_margin (b : Byte) (s : State) : (byteFailed b s).margin = s.margin := rfl
@[simp] theorem byteFailed_fb (b : Byte) (s : State) : (byteFailed b s).fb = s.fb := rfl
@[simp] theorem byteFailed_pkt (b : Byte) (s : State) : (byteFailed b s).pkt = s.pkt := rfl
@[simp] theorem byteFailed_txi (b : Byte) (s : State) : (byteFailed b s).txi = s.txi := rfl
@[simp] theorem byteFailed_timer (b : Byte) (s : State) : (byteFailed b s).timer = s.timer := rfl
@[simp] theorem byteFailed_err (b : Byte) (s : State) : (byteFailed b s).err = .channel := rfl
@[simp] theorem byteFailed_refused (b : Byte) (s : State) : (byteFailed b s).refused = s.refused := rfl
@[simp] theorem byteFailed_resp (b : Byte) (s : State) : (byteFailed b s).resp = .channelError := rfl
@[simp] theorem byteFailed_rdata (b : Byte) (s : State) : (byteFailed b s).rdata = s.rdata := rfl
@[simp] theorem byteFailed_sendPending (b : Byte) (s : State) : (byteFailed b s).sendPending = false := rfl
@[simp] theorem byteFailed_now (b : Byte) (s : State) : (byteFailed b s).now = s.now := rfl
@[simp] theorem byteFailed_trace (b : Byte) (s : State) : (byteFailed b s).trace = s.trace ++ [.writeFail b s.now] := rfl
@[simp] theorem byteFailed_hostOps (b : Byte) (s : State) : (byteFailed b s).hostOps = s.hostOps := rfl
@[simp] theorem byteFailed_answers (b : Byte) (s : State) : (byteFailed b s).answers = s.answers := rfl
@[simp] theorem byteFailed_turns (b : Byte) (s : State) : (byteFailed b s).turns = s.turns := rfl

@[simp] theorem flushAccepted_mode (s : State) : (flushAccepted s).mode = .idle := rfl
@[simp] theorem flushAccepted_addr (s : State) : (flushAccepted s).addr = s.addr := rfl
@[simp] theorem flushAccepted_h (s : State) : (flushAccepted s).h = s.h := rfl
@[simp] theorem flushAccepted_w (s : State) : (flushAccepted s).w = s.w := rfl
@[simp] theorem flushAccepted_baud (s : State) : (flushAccepted s).baud = s.baud := rfl
@[simp] theorem flushAccepted_margin (s : State) : (flushAccepted s).margin = s.margin := rfl
@[simp] theorem flushAccepted_fb (s : State) : (flushAccepted s).fb = s.fb := rfl
@[simp] theorem flushAccepted_pkt (s : State) : (flushAccepted s).pkt = s.pkt := rfl
@[simp] theorem flushAccepted_txi (s : State) : (flushAccepted s).txi = s.txi := rfl
@[simp] theorem flushAccepted_timer (s : State) : (flushAccepted s).timer = s.timer := rfl
@[simp] theorem flushAccepted_err (s : State) : (flushAccepted s).err = s.err := rfl
@[simp] theorem flushAccepted_refused (s : State) : (flushAccepted s).refused = s.refused := rfl
@[simp] theorem flushAccepted_resp (s : State) : (flushAccepted s).resp = .ok := rfl
@[simp] theorem flushAccepted_rdata (s : State) : (flushAccepted s).rdata = s.rdata := rfl
@[simp] theorem flushAccepted_sendPending (s : State) : (flushAccepted s).sendPending = false := rfl
@[simp] theorem flushAccepted_now (s : State) : (flushAccepted s).now = s.now := rfl
@[simp] theorem flushAccepted_trace (s : State) : (flushAccepted s).trace = s.trace ++ [.flush s.now] := rfl
@[simp] theorem flushAccepted_hostOps (s : State) : (flushAccepted s).hostOps = s.hostOps := rfl
@[simp] theorem flushAccepted_answers (s : State) : (flushAccepted s).answers = s.answers := rfl
@[simp] theorem flushAccepted_turns (s : State) : (flushAccepted s).turns = s.turns := rfl

@[simp] theorem flushFailed_mode (s : State) : (flushFailed s).mode = .fault := rfl
@[simp] theorem flushFailed_addr (s : State) : (flushFailed s).addr = s.addr := rfl
@[simp] theorem flushFailed_h (s : State) : (flushFailed s).h = s.h := rfl
@[simp] theorem flushFailed_w (s : State) : (flushFailed s).w = s.w := rfl
@[simp] theorem flushFailed_baud (s : State) : (flushFailed s).baud = s.baud := rfl
@[simp] theorem flushFailed_margin (s : State) : (flushFailed s).margin = s.margin := rfl
@[simp] theorem flushFailed_fb (s : State) : (flushFailed s).fb = s.fb := rfl
@[simp] theorem flushFailed_pkt (s : State) : (flushFailed s).pkt = s.pkt := rfl
@[simp] theorem flushFailed_txi (s : State) : (flushFailed s).txi = s.txi := rfl
@[simp] theorem flushFailed_timer (s : State) : (flushFailed s).timer = s.timer := rfl
@[simp] theorem flushFailed_err (s : State) : (flushFailed s).err = .channel := rfl
@[simp] theorem flushFailed_refused (s : State) : (flushFailed s).refused = s.refused := rfl
@[simp] theorem flushFailed_resp (s : State) : (flushFailed s).resp = .channelError := rfl
@[simp] theorem flushFailed_rdata (s : State) : (flushFailed s).rdata = s.rdata := rfl
@[simp] theorem flushFailed_sendPending (s : State) : (flushFailed s).sendPending = false := rfl
@[simp] theorem flushFailed_now (s : State) : (flushFailed s).now = s.now := rfl
@[simp] theorem flushFailed_trace (s : State) : (flushFailed s).trace = s.trace ++ [.flushFail s.now] := rfl
@[simp] theorem flushFailed_hostOps (s : State) : (flushFailed s).hostOps = s.hostOps := rfl
@[simp] theorem flushFailed_answers (s : State) : (flushFailed s).answers = s.answers := rfl
@[simp] theorem flushFailed_turns (s : State) : (flushFailed s).turns = s.turns := rfl

theorem modeAfterByte_last (l : Nat) (m : Mode) : modeAfterByte l l m = .flush := if_pos rfl

theorem modeAfterByte_other {n l : Nat} (h : n ≠ l) (m : Mode) : modeAfterByte n l m = m := if_neg h

end Sys2Proof.Machine
end

