-- ==== Sys2Proof/Laws/Step.lean ====
section
/-! SUPPORT. What a step can do, said once: one lemma per shared operation and one inversion lemma for `step`, which later
proofs cite instead of unfolding the machine. -/

namespace Sys2Proof.Machine

/-- The state with the turn of the next step taken. -/
def turnTaken (s : State) : State := { s with turns := s.turns.tail }

/-- The state in which the port accepts an operation: its turn taken, and `ps` the rest of the host's program. -/
def accepting (ps : List PortSignals) (s : State) : State := { turnTaken s with hostOps := ps }

/-- The state in which the channel has answered: the sequencer's turn taken, and `rest` the answers to come. -/
def answered (rest : List Answer) (s : State) : State := { turnTaken s with answers := rest }

@[simp] theorem turnTaken_mode (s : State) : (turnTaken s).mode = s.mode := rfl
@[simp] theorem turnTaken_addr (s : State) : (turnTaken s).addr = s.addr := rfl
@[simp] theorem turnTaken_h (s : State) : (turnTaken s).h = s.h := rfl
@[simp] theorem turnTaken_w (s : State) : (turnTaken s).w = s.w := rfl
@[simp] theorem turnTaken_baud (s : State) : (turnTaken s).baud = s.baud := rfl
@[simp] theorem turnTaken_margin (s : State) : (turnTaken s).margin = s.margin := rfl
@[simp] theorem turnTaken_fb (s : State) : (turnTaken s).fb = s.fb := rfl
@[simp] theorem turnTaken_pkt (s : State) : (turnTaken s).pkt = s.pkt := rfl
@[simp] theorem turnTaken_txi (s : State) : (turnTaken s).txi = s.txi := rfl
@[simp] theorem turnTaken_timer (s : State) : (turnTaken s).timer = s.timer := rfl
@[simp] theorem turnTaken_err (s : State) : (turnTaken s).err = s.err := rfl
@[simp] theorem turnTaken_refused (s : State) : (turnTaken s).refused = s.refused := rfl
@[simp] theorem turnTaken_resp (s : State) : (turnTaken s).resp = s.resp := rfl
@[simp] theorem turnTaken_rdata (s : State) : (turnTaken s).rdata = s.rdata := rfl
@[simp] theorem turnTaken_sendPending (s : State) : (turnTaken s).sendPending = s.sendPending := rfl
@[simp] theorem turnTaken_now (s : State) : (turnTaken s).now = s.now := rfl
@[simp] theorem turnTaken_trace (s : State) : (turnTaken s).trace = s.trace := rfl
@[simp] theorem turnTaken_hostOps (s : State) : (turnTaken s).hostOps = s.hostOps := rfl
@[simp] theorem turnTaken_answers (s : State) : (turnTaken s).answers = s.answers := rfl
@[simp] theorem turnTaken_turns (s : State) : (turnTaken s).turns = s.turns.tail := rfl

@[simp] theorem accepting_mode (ps : List PortSignals) (s : State) : (accepting ps s).mode = s.mode := rfl
@[simp] theorem accepting_addr (ps : List PortSignals) (s : State) : (accepting ps s).addr = s.addr := rfl
@[simp] theorem accepting_h (ps : List PortSignals) (s : State) : (accepting ps s).h = s.h := rfl
@[simp] theorem accepting_w (ps : List PortSignals) (s : State) : (accepting ps s).w = s.w := rfl
@[simp] theorem accepting_baud (ps : List PortSignals) (s : State) : (accepting ps s).baud = s.baud := rfl
@[simp] theorem accepting_margin (ps : List PortSignals) (s : State) : (accepting ps s).margin = s.margin := rfl
@[simp] theorem accepting_fb (ps : List PortSignals) (s : State) : (accepting ps s).fb = s.fb := rfl
@[simp] theorem accepting_pkt (ps : List PortSignals) (s : State) : (accepting ps s).pkt = s.pkt := rfl
@[simp] theorem accepting_txi (ps : List PortSignals) (s : State) : (accepting ps s).txi = s.txi := rfl
@[simp] theorem accepting_timer (ps : List PortSignals) (s : State) : (accepting ps s).timer = s.timer := rfl
@[simp] theorem accepting_err (ps : List PortSignals) (s : State) : (accepting ps s).err = s.err := rfl
@[simp] theorem accepting_refused (ps : List PortSignals) (s : State) : (accepting ps s).refused = s.refused := rfl
@[simp] theorem accepting_resp (ps : List PortSignals) (s : State) : (accepting ps s).resp = s.resp := rfl
@[simp] theorem accepting_rdata (ps : List PortSignals) (s : State) : (accepting ps s).rdata = s.rdata := rfl
@[simp] theorem accepting_sendPending (ps : List PortSignals) (s : State) : (accepting ps s).sendPending = s.sendPending := rfl
@[simp] theorem accepting_now (ps : List PortSignals) (s : State) : (accepting ps s).now = s.now := rfl
@[simp] theorem accepting_trace (ps : List PortSignals) (s : State) : (accepting ps s).trace = s.trace := rfl
@[simp] theorem accepting_hostOps (ps : List PortSignals) (s : State) : (accepting ps s).hostOps = ps := rfl
@[simp] theorem accepting_answers (ps : List PortSignals) (s : State) : (accepting ps s).answers = s.answers := rfl
@[simp] theorem accepting_turns (ps : List PortSignals) (s : State) : (accepting ps s).turns = s.turns.tail := rfl

@[simp] theorem answered_mode (rest : List Answer) (s : State) : (answered rest s).mode = s.mode := rfl
@[simp] theorem answered_addr (rest : List Answer) (s : State) : (answered rest s).addr = s.addr := rfl
@[simp] theorem answered_h (rest : List Answer) (s : State) : (answered rest s).h = s.h := rfl
@[simp] theorem answered_w (rest : List Answer) (s : State) : (answered rest s).w = s.w := rfl
@[simp] theorem answered_baud (rest : List Answer) (s : State) : (answered rest s).baud = s.baud := rfl
@[simp] theorem answered_margin (rest : List Answer) (s : State) : (answered rest s).margin = s.margin := rfl
@[simp] theorem answered_fb (rest : List Answer) (s : State) : (answered rest s).fb = s.fb := rfl
@[simp] theorem answered_pkt (rest : List Answer) (s : State) : (answered rest s).pkt = s.pkt := rfl
@[simp] theorem answered_txi (rest : List Answer) (s : State) : (answered rest s).txi = s.txi := rfl
@[simp] theorem answered_timer (rest : List Answer) (s : State) : (answered rest s).timer = s.timer := rfl
@[simp] theorem answered_err (rest : List Answer) (s : State) : (answered rest s).err = s.err := rfl
@[simp] theorem answered_refused (rest : List Answer) (s : State) : (answered rest s).refused = s.refused := rfl
@[simp] theorem answered_resp (rest : List Answer) (s : State) : (answered rest s).resp = s.resp := rfl
@[simp] theorem answered_rdata (rest : List Answer) (s : State) : (answered rest s).rdata = s.rdata := rfl
@[simp] theorem answered_sendPending (rest : List Answer) (s : State) : (answered rest s).sendPending = s.sendPending := rfl
@[simp] theorem answered_now (rest : List Answer) (s : State) : (answered rest s).now = s.now := rfl
@[simp] theorem answered_trace (rest : List Answer) (s : State) : (answered rest s).trace = s.trace := rfl
@[simp] theorem answered_hostOps (rest : List Answer) (s : State) : (answered rest s).hostOps = s.hostOps := rfl
@[simp] theorem answered_answers (rest : List Answer) (s : State) : (answered rest s).answers = rest := rfl
@[simp] theorem answered_turns (rest : List Answer) (s : State) : (answered rest s).turns = s.turns.tail := rfl

/-- The state in which the port has accepted a SEND, which is outstanding from then on. -/
def sendAccepted (ps : List PortSignals) (s : State) : State := { accepting ps s with sendPending := true }

@[simp] theorem sendAccepted_mode (ps : List PortSignals) (s : State) : (sendAccepted ps s).mode = s.mode := rfl
@[simp] theorem sendAccepted_addr (ps : List PortSignals) (s : State) : (sendAccepted ps s).addr = s.addr := rfl
@[simp] theorem sendAccepted_h (ps : List PortSignals) (s : State) : (sendAccepted ps s).h = s.h := rfl
@[simp] theorem sendAccepted_w (ps : List PortSignals) (s : State) : (sendAccepted ps s).w = s.w := rfl
@[simp] theorem sendAccepted_baud (ps : List PortSignals) (s : State) : (sendAccepted ps s).baud = s.baud := rfl
@[simp] theorem sendAccepted_margin (ps : List PortSignals) (s : State) : (sendAccepted ps s).margin = s.margin := rfl
@[simp] theorem sendAccepted_fb (ps : List PortSignals) (s : State) : (sendAccepted ps s).fb = s.fb := rfl
@[simp] theorem sendAccepted_pkt (ps : List PortSignals) (s : State) : (sendAccepted ps s).pkt = s.pkt := rfl
@[simp] theorem sendAccepted_txi (ps : List PortSignals) (s : State) : (sendAccepted ps s).txi = s.txi := rfl
@[simp] theorem sendAccepted_timer (ps : List PortSignals) (s : State) : (sendAccepted ps s).timer = s.timer := rfl
@[simp] theorem sendAccepted_err (ps : List PortSignals) (s : State) : (sendAccepted ps s).err = s.err := rfl
@[simp] theorem sendAccepted_refused (ps : List PortSignals) (s : State) : (sendAccepted ps s).refused = s.refused := rfl
@[simp] theorem sendAccepted_resp (ps : List PortSignals) (s : State) : (sendAccepted ps s).resp = s.resp := rfl
@[simp] theorem sendAccepted_rdata (ps : List PortSignals) (s : State) : (sendAccepted ps s).rdata = s.rdata := rfl
@[simp] theorem sendAccepted_sendPending (ps : List PortSignals) (s : State) : (sendAccepted ps s).sendPending = true := rfl
@[simp] theorem sendAccepted_now (ps : List PortSignals) (s : State) : (sendAccepted ps s).now = s.now := rfl
@[simp] theorem sendAccepted_trace (ps : List PortSignals) (s : State) : (sendAccepted ps s).trace = s.trace := rfl
@[simp] theorem sendAccepted_hostOps (ps : List PortSignals) (s : State) : (sendAccepted ps s).hostOps = ps := rfl
@[simp] theorem sendAccepted_answers (ps : List PortSignals) (s : State) : (sendAccepted ps s).answers = s.answers := rfl
@[simp] theorem sendAccepted_turns (ps : List PortSignals) (s : State) : (sendAccepted ps s).turns = s.turns.tail := rfl

/-- `L` depends on the configuration alone (`10_state.md` R13). -/
theorem packetLength_congr {s t : State} (hh : t.h = s.h) (hw : t.w = s.w) : packetLength t = packetLength s := by
  simp [packetLength, hh, hw]

/-- `INTERVAL_TICKS` depends on the configuration alone (`10_state.md` R13). -/
theorem intervalTicks_congr {s t : State} (hh : t.h = s.h) (hw : t.w = s.w) (hb : t.baud = s.baud)
    (hm : t.margin = s.margin) : intervalTicks t = intervalTicks s := by
  simp [intervalTicks, packetLength, hh, hw, hb, hm]

/-- The packet depends on the address, the frame buffer and its dimensions alone (`40_column_packer.md` R83). -/
theorem nextPacket_congr {s t : State} (ha : t.addr = s.addr) (hf : t.fb = s.fb) (hh : t.h = s.h) (hw : t.w = s.w) :
    nextPacket t = nextPacket s := by
  simp [nextPacket, payload, ha, hf, hh, hw]

theorem packetLength_ge (s : State) : 8 ≤ packetLength s := by
  unfold packetLength packetLengthOf; omega

@[simp] theorem portBusy_turnTaken (s : State) : portBusy (turnTaken s) = portBusy s := rfl

@[simp] theorem portBusy_accepting (ps : List PortSignals) (s : State) : portBusy (accepting ps s) = portBusy s := rfl

@[simp] theorem packetLength_answered (rest : List Answer) (s : State) :
    packetLength (answered rest s) = packetLength s := rfl

theorem nextTurn_snd (s : State) : (nextTurn s).2 = turnTaken s := by
  obtain ⟨⟩ := s
  rename_i turns
  cases turns <;> rfl

theorem turn_of_cons {s : State} {t : Turn} {ts : List Turn} (h : s.turns = t :: ts) : turn s = t := by
  simp [turn, nextTurn, h]

theorem turn_of_nil {s : State} (h : s.turns = []) : turn s = .clock := by simp [turn, nextTurn, h]

theorem step_eq (s : State) : step s = agentStep (turn s) (turnTaken s) := by
  rw [step, turn, nextTurn_snd]

/-- What a host operation does when the port accepts it. -/
def hostEffect : Instr → State → State
  | .configure addr h w baud margin => configureEffect addr h w baud margin
  | .setpix row col v => setpixEffect row col v
  | .getpix row col => getpixEffect row col
  | .send => sendEffect
  | .frame _ _ => id

/-- A host operation always answers a next state: its effect at a free port, nothing at an occupied one. -/
theorem exec_host {i : Instr} (hi : i.port = .host) (s : State) :
    exec i s = .next (if portBusy s then s else hostEffect i s) := by
  cases i <;> first | (cases hi; done) | skip
  all_goals
    simp only [exec, execConfigure, execSetpix, execGetpix, execSend, whenPortFree, hostEffect]
    split <;> rfl

theorem exec_host_free {i : Instr} (hi : i.port = .host) {s : State} (hs : portBusy s = false) :
    exec i s = .next (hostEffect i s) := by
  rw [exec_host hi, hs]; rfl

theorem exec_host_busy {i : Instr} (hi : i.port = .host) {s : State} (hs : portBusy s = true) :
    exec i s = .next s := by
  rw [exec_host hi, hs]; rfl

theorem decodeSignals_port (p : PortSignals) : (decodeSignals p).port = .host := by
  unfold decodeSignals; repeat' split
  all_goals rfl

theorem portBusy_eq_false {s : State} :
    portBusy s = false ↔ s.sendPending = false ∧ s.mode ≠ .tx ∧ s.mode ≠ .flush := by
  simp [portBusy, and_assoc]

theorem startEnabled_iff {s : State} :
    startEnabled s = true ↔ s.sendPending = true ∧ s.mode = .idle ∧ s.timer = 0 := by
  simp [startEnabled, and_assoc]

theorem acceptedOperation_some {s s' : State} {i : Instr} :
    acceptedOperation s = some (i, s') ↔
      ∃ p ps, s.hostOps = p :: ps ∧ portBusy s = false ∧ i = decodeSignals p ∧ s' = { s with hostOps := ps } := by
  unfold acceptedOperation
  cases hb : portBusy s <;> cases ho : s.hostOps <;> simp [eq_comm]

theorem acceptedOperation_none {s : State} :
    acceptedOperation s = none ↔ portBusy s = true ∨ s.hostOps = [] := by
  unfold acceptedOperation
  cases hb : portBusy s <;> cases ho : s.hostOps <;> simp

theorem operationTaken_eq_some {s : State} {i : Instr} :
    operationTaken s = some i ↔
      turn s = .host ∧ portBusy s = false ∧ ∃ p ps, s.hostOps = p :: ps ∧ i = decodeSignals p := by
  unfold operationTaken
  cases ht : turn s <;> simp [nextTurn_snd]
  unfold acceptedOperation
  rw [portBusy_turnTaken]
  cases hb : portBusy s <;> cases ho : s.hostOps <;> simp [turnTaken, ho, eq_comm]

/-! Every way an accepted operation can act, one lemma each. -/

theorem configureEffect_cases (addr : BitVec 8) (h w : BitVec 16) (baud margin : BitVec 32) (s : State) :
    (s.mode ≠ .unconf ∧ configureEffect addr h w baud margin s = refuse s) ∨
    (s.mode = .unconf ∧ legalConfiguration addr h w baud = true ∧
      configureEffect addr h w baud margin s = respond .ok
        { s with addr := addressField addr, h := h, w := w, baud := baud, margin := margin, fb := [],
                 mode := .idle }) ∨
    (s.mode = .unconf ∧ legalConfiguration addr h w baud = false ∧
      configureEffect addr h w baud margin s = raiseConfigurationError s) := by
  unfold configureEffect
  by_cases hm : s.mode = .unconf
  · cases hl : legalConfiguration addr h w baud <;> simp [hm]
  · simp [hm]

theorem legalConfiguration_eq_true {addr : BitVec 8} {h w : BitVec 16} {baud : BitVec 32} :
    legalConfiguration addr h w baud = true ↔ addr.toNat ≤ 15 ∧ h ≠ 0 ∧ w ≠ 0 ∧ baud ≠ 0 := by
  simp [legalConfiguration, and_assoc]

theorem legalConfiguration_eq_false {addr : BitVec 8} {h w : BitVec 16} {baud : BitVec 32} :
    legalConfiguration addr h w baud = false ↔ 15 < addr.toNat ∨ h = 0 ∨ w = 0 ∨ baud = 0 := by
  rw [← Bool.not_eq_true, legalConfiguration_eq_true]
  simp only [not_and_or, not_not, Nat.not_le]

theorem inRange_eq_true {s : State} {row col : BitVec 16} :
    inRange s row col = true ↔ row.toNat < s.h.toNat ∧ col.toNat < s.w.toNat := by
  simp [inRange]

theorem setpixEffect_cases (row col : BitVec 16) (v : Bool) (s : State) :
    ((s.mode ≠ .idle ∨ inRange s row col = false) ∧ setpixEffect row col v s = refuse s) ∨
    (s.mode = .idle ∧ inRange s row col = true ∧
      setpixEffect row col v s = respond .ok (writeCell s row.toNat col.toNat v)) := by
  unfold setpixEffect
  by_cases hm : s.mode = .idle
  · cases hr : inRange s row col <;> simp [hm]
  · simp [hm]

theorem getpixEffect_cases (row col : BitVec 16) (s : State) :
    ((s.mode ≠ .idle ∨ inRange s row col = false) ∧ getpixEffect row col s = refuseData s) ∨
    (s.mode = .idle ∧ inRange s row col = true ∧
      getpixEffect row col s = respondData .ok (readCell s row.toNat col.toNat) s) := by
  unfold getpixEffect
  by_cases hm : s.mode = .idle
  · cases hr : inRange s row col <;> simp [hm]
  · simp [hm]

theorem sendEffect_cases (s : State) (hs : portBusy s = false) :
    ((s.mode = .unconf ∨ s.mode = .fault) ∧ sendEffect s = refuse s) ∨
    (s.mode = .idle ∧ sendEffect s = { s with sendPending := true }) := by
  obtain ⟨-, h1, h2⟩ := portBusy_eq_false.1 hs
  cases hm : s.mode <;> simp [sendEffect, hm] at *

/-- Every way a step can answer a next state. -/
inductive StepCase (s : State) : State → Prop
  /-- RESET. -/
  | reset : turn s = .reset → StepCase s (resetBlock (turnTaken s))
  /-- TICK. -/
  | clock : turn s = .clock → StepCase s (tick (turnTaken s))
  /-- The host waits, or has nothing to issue. -/
  | hostWaits : turn s = .host → operationTaken s = none → StepCase s (turnTaken s)
  /-- CONFIGURE refused. -/
  | configureRefused (ps addr h w baud margin) :
      operationTaken s = some (.configure addr h w baud margin) → (∃ p, s.hostOps = p :: ps) → portBusy s = false →
      s.mode ≠ .unconf → StepCase s (refuse (accepting ps s))
  /-- CONFIGURE performed. -/
  | configured (ps addr h w baud margin) :
      operationTaken s = some (.configure addr h w baud margin) → (∃ p, s.hostOps = p :: ps) → portBusy s = false →
      s.mode = .unconf → addr.toNat ≤ 15 → h ≠ 0 → w ≠ 0 → baud ≠ 0 →
      StepCase s (respond .ok
        { accepting ps s with addr := addressField addr, h := h, w := w, baud := baud, margin := margin, fb := [],
                              mode := .idle })
  /-- ConfigurationError. -/
  | misconfigured (ps addr h w baud margin) :
      operationTaken s = some (.configure addr h w baud margin) → (∃ p, s.hostOps = p :: ps) → portBusy s = false →
      s.mode = .unconf → 15 < addr.toNat ∨ h = 0 ∨ w = 0 ∨ baud = 0 →
      StepCase s (raiseConfigurationError (accepting ps s))
  /-- SETPIX refused. -/
  | setpixRefused (ps row col v) : operationTaken s = some (.setpix row col v) → (∃ p, s.hostOps = p :: ps) →
      portBusy s = false → s.mode ≠ .idle ∨ inRange s row col = false → StepCase s (refuse (accepting ps s))
  /-- SETPIX performed. -/
  | setpix (ps row col v) : operationTaken s = some (.setpix row col v) → (∃ p, s.hostOps = p :: ps) →
      portBusy s = false → s.mode = .idle → inRange s row col = true →
      StepCase s (respond .ok (writeCell (accepting ps s) row.toNat col.toNat v))
  /-- GETPIX refused. -/
  | getpixRefused (ps row col) : operationTaken s = some (.getpix row col) → (∃ p, s.hostOps = p :: ps) →
      portBusy s = false → s.mode ≠ .idle ∨ inRange s row col = false → StepCase s (refuseData (accepting ps s))
  /-- GETPIX performed. -/
  | getpix (ps row col) : operationTaken s = some (.getpix row col) → (∃ p, s.hostOps = p :: ps) →
      portBusy s = false → s.mode = .idle → inRange s row col = true →
      StepCase s (respondData .ok (readCell s row.toNat col.toNat) (accepting ps s))
  /-- SEND refused. -/
  | sendRefused (ps) : operationTaken s = some .send → (∃ p, s.hostOps = p :: ps) → portBusy s = false →
      s.mode = .unconf ∨ s.mode = .fault → StepCase s (refuse (accepting ps s))
  /-- SEND accepted, and outstanding from then on. -/
  | send (ps) : operationTaken s = some .send → (∃ p, s.hostOps = p :: ps) → portBusy s = false →
      s.mode = .idle → StepCase s (sendAccepted ps s)
  /-- The sequencer has no enabled step. -/
  | sequencerWaits : turn s = .sequencer →
      (s.mode = .unconf ∨ s.mode = .fault ∨ s.mode = .idle ∧ startEnabled s = false ∨
        (s.mode = .tx ∨ s.mode = .flush) ∧ s.answers = []) → StepCase s (turnTaken s)
  /-- START of an outstanding SEND. -/
  | start : turn s = .sequencer → s.mode = .idle → s.sendPending = true → s.timer = 0 →
      StepCase s (start (turnTaken s))
  /-- TXBYTE answered `ok`. -/
  | byteAccepted (b : Byte) (rest : List Answer) : turn s = .sequencer → s.mode = .tx → s.pkt[s.txi]? = some b →
      s.answers = .ok :: rest → StepCase s (byteAccepted b (answered rest s))
  /-- TXBYTE answered `err`. -/
  | byteFailed (b : Byte) (rest : List Answer) : turn s = .sequencer → s.mode = .tx → s.pkt[s.txi]? = some b →
      s.answers = .err :: rest → StepCase s (byteFailed b (answered rest s))
  /-- TXFLUSH answered `ok`. -/
  | flushAccepted (rest : List Answer) : turn s = .sequencer → s.mode = .flush → s.answers = .ok :: rest →
      StepCase s (flushAccepted (answered rest s))
  /-- TXFLUSH answered `err`. -/
  | flushFailed (rest : List Answer) : turn s = .sequencer → s.mode = .flush → s.answers = .err :: rest →
      StepCase s (flushFailed (answered rest s))

/-- The cases of a step in which the port accepts an operation. -/
theorem accepted_cases {s : State} {p : PortSignals} {ps : List PortSignals} (ht : turn s = .host)
    (ho : s.hostOps = p :: ps) (hb : portBusy s = false) :
    StepCase s (hostEffect (decodeSignals p) (accepting ps s)) := by
  have hop : operationTaken s = some (decodeSignals p) := operationTaken_eq_some.2 ⟨ht, hb, p, ps, ho, rfl⟩
  have hps : ∃ p, s.hostOps = p :: ps := ⟨p, ho⟩
  have hb' : portBusy (accepting ps s) = false := hb
  have hi := decodeSignals_port p
  revert hop hi
  cases decodeSignals p with
  | configure addr h w baud margin =>
    intro hop _
    rcases configureEffect_cases addr h w baud margin (accepting ps s) with ⟨hm, he⟩ | ⟨hm, hl, he⟩ | ⟨hm, hl, he⟩ <;>
      rw [hostEffect, he]
    · exact .configureRefused ps _ _ _ _ _ hop hps hb hm
    · obtain ⟨h1, h2, h3, h4⟩ := legalConfiguration_eq_true.1 hl
      exact .configured ps _ _ _ _ _ hop hps hb hm h1 h2 h3 h4
    · exact .misconfigured ps _ _ _ _ _ hop hps hb hm (legalConfiguration_eq_false.1 hl)
  | setpix row col v =>
    intro hop _
    rcases setpixEffect_cases row col v (accepting ps s) with ⟨hm, he⟩ | ⟨hm, hr, he⟩ <;> rw [hostEffect, he]
    · exact .setpixRefused ps _ _ _ hop hps hb hm
    · exact .setpix ps _ _ _ hop hps hb hm hr
  | getpix row col =>
    intro hop _
    rcases getpixEffect_cases row col (accepting ps s) with ⟨hm, he⟩ | ⟨hm, hr, he⟩ <;> rw [hostEffect, he]
    · exact .getpixRefused ps _ _ hop hps hb hm
    · exact .getpix ps _ _ hop hps hb hm hr
  | send =>
    intro hop _
    rcases sendEffect_cases (accepting ps s) hb' with ⟨hm, he⟩ | ⟨hm, he⟩ <;> rw [hostEffect, he]
    · exact .sendRefused ps hop hps hb hm
    · exact .send ps hop hps hb hm
  | frame _ _ => intro _ hi; cases hi

/-- If a step answers a next state, it is one of the cases. -/
theorem step_cases {s t : State} (h : step s = .next t) : StepCase s t := by
  rw [step_eq] at h
  cases ht : turn s with
  | reset => rw [ht] at h; cases h; exact .reset ht
  | clock => rw [ht] at h; cases h; exact .clock ht
  | host =>
    rw [ht, agentStep] at h
    cases hop : acceptedOperation (turnTaken s) with
    | none =>
      rw [hop] at h; cases h
      exact .hostWaits ht (by simp [operationTaken, ht, nextTurn_snd, hop])
    | some is =>
      obtain ⟨i, s'⟩ := is
      rw [hop] at h
      obtain ⟨p, ps, ho, hb, rfl, rfl⟩ := acceptedOperation_some.1 hop
      have hb' : portBusy (accepting ps s) = false := hb
      have he := exec_host_free (decodeSignals_port p) hb'
      obtain rfl := Host.Outcome.next.inj (he.symm.trans h)
      exact accepted_cases ht ho hb
  | sequencer =>
    rw [ht, agentStep, sequencerTurn, turnTaken_mode] at h
    cases hm : s.mode with
    | unconf => rw [hm] at h; cases h; exact .sequencerWaits ht (.inl hm)
    | fault => rw [hm] at h; cases h; exact .sequencerWaits ht (.inr (.inl hm))
    | idle =>
      rw [hm] at h
      simp only at h
      split at h
      · rename_i he; cases h
        obtain ⟨h1, -, h2⟩ := startEnabled_iff.1 he
        exact .start ht hm h1 h2
      · rename_i he; cases h
        exact .sequencerWaits ht (.inr (.inr (.inl ⟨hm, by simpa [startEnabled] using he⟩)))
    | tx =>
      rw [hm] at h
      simp only [txByte] at h
      split at h
      · rename_i ha; cases h; exact .sequencerWaits ht (.inr (.inr (.inr ⟨.inl hm, ha⟩)))
      · cases h
      · rename_i rest b ha hp; cases h; exact .byteAccepted b rest ht hm hp ha
      · rename_i rest b ha hp; cases h; exact .byteFailed b rest ht hm hp ha
    | flush =>
      rw [hm] at h
      simp only [txFlush] at h
      split at h
      · rename_i ha; cases h; exact .sequencerWaits ht (.inr (.inr (.inr ⟨.inr hm, ha⟩)))
      · rename_i rest ha; cases h; exact .flushAccepted rest ht hm ha
      · rename_i rest ha; cases h; exact .flushFailed rest ht hm ha

/-! The steps of a known turn, forwards. -/

theorem step_clock {s : State} {ts : List Turn} (h : s.turns = .clock :: ts) : step s = .next (tick (turnTaken s)) := by
  rw [step_eq, turn_of_cons h]; rfl

theorem step_reset {s : State} {ts : List Turn} (h : s.turns = .reset :: ts) :
    step s = .next (resetBlock (turnTaken s)) := by
  rw [step_eq, turn_of_cons h]; rfl

theorem step_sequencer {s : State} {ts : List Turn} (h : s.turns = .sequencer :: ts) :
    step s = sequencerTurn (turnTaken s) := by
  rw [step_eq, turn_of_cons h]; rfl

/-- The port accepts the host's next operation. -/
theorem step_accepted {s : State} {ts : List Turn} {p : PortSignals} {ps : List PortSignals}
    (h : s.turns = .host :: ts) (ho : s.hostOps = p :: ps) (hb : portBusy s = false) :
    step s = .next (hostEffect (decodeSignals p) (accepting ps s)) := by
  have hop : acceptedOperation (turnTaken s) = some (decodeSignals p, accepting ps s) :=
    acceptedOperation_some.2 ⟨p, ps, ho, hb, rfl, rfl⟩
  have hb' : portBusy (accepting ps s) = false := hb
  rw [step_eq, turn_of_cons h, agentStep, hop]
  exact exec_host_free (decodeSignals_port p) hb'

theorem step_byteAccepted {s : State} {ts : List Turn} {rest : List Answer} {b : Byte} (h : s.turns = .sequencer :: ts)
    (hm : s.mode = .tx) (hb : s.pkt[s.txi]? = some b) (ha : s.answers = .ok :: rest) :
    step s = .next (byteAccepted b (answered rest s)) := by
  rw [step_sequencer h]
  cases s
  simp_all [sequencerTurn, txByte, turnTaken, answered]

theorem step_byteFailed {s : State} {ts : List Turn} {rest : List Answer} {b : Byte} (h : s.turns = .sequencer :: ts)
    (hm : s.mode = .tx) (hb : s.pkt[s.txi]? = some b) (ha : s.answers = .err :: rest) :
    step s = .next (byteFailed b (answered rest s)) := by
  rw [step_sequencer h]
  cases s
  simp_all [sequencerTurn, txByte, turnTaken, answered]

theorem step_flushAccepted {s : State} {ts : List Turn} {rest : List Answer} (h : s.turns = .sequencer :: ts)
    (hm : s.mode = .flush) (ha : s.answers = .ok :: rest) : step s = .next (flushAccepted (answered rest s)) := by
  rw [step_sequencer h]
  cases s
  simp_all [sequencerTurn, txFlush, turnTaken, answered]

theorem step_flushFailed {s : State} {ts : List Turn} {rest : List Answer} (h : s.turns = .sequencer :: ts)
    (hm : s.mode = .flush) (ha : s.answers = .err :: rest) : step s = .next (flushFailed (answered rest s)) := by
  rw [step_sequencer h]
  cases s
  simp_all [sequencerTurn, txFlush, turnTaken, answered]

/-! Runs. -/

theorem run_succ_of_step {s t : State} (h : step s = .next t) (k : Nat) : run (k + 1) s = run k t := by
  simp [run, h]

/-- A run that answers a next state took its first step. -/
theorem run_succ_cases {s t : State} {k : Nat} (h : run (k + 1) s = .next t) :
    ∃ u, step s = .next u ∧ run k u = .next t := by
  rw [run] at h
  cases hs : step s with
  | next u => rw [hs] at h; exact ⟨u, rfl, h⟩
  | fault r => rw [hs] at h; cases h
  | refused r => rw [hs] at h; cases h

/-- Runs compose. -/
theorem run_add {j : Nat} {s t : State} (h : run j s = .next t) (k : Nat) : run (j + k) s = run k t := by
  induction j generalizing s with
  | zero => cases h; rw [Nat.zero_add]
  | succ j ih =>
    obtain ⟨u, hu, hr⟩ := run_succ_cases h
    rw [Nat.succ_add, run_succ_of_step hu, ih hr]

/-- The host's own run is the same (`Host.Core.run`). -/
theorem core_run_eq (k : Nat) (s : State) : Sys2Proof.core.run k s = run k s := by
  induction k generalizing s with
  | zero => rfl
  | succ k ih =>
    have hstep : Sys2Proof.core.step s = step s := rfl
    simp only [Host.Core.run, run]
    cases hs : step s with
    | next t => rw [hs] at hstep; simp only [hstep]; exact ih t
    | fault r => rw [hs] at hstep; simp only [hstep]; rfl
    | refused r => rw [hs] at hstep; simp only [hstep]; rfl

end Sys2Proof.Machine
end

