-- ==== Sys2Proof/Laws/HostDriver.lean ====
section
/-! SUPPORT. What the loop of driver and block can do, said once; later proofs cite these lemmas instead of unfolding it. -/

namespace Sys2Proof.Machine

@[simp] theorem issue_mode (i : Instr) (s : State) : (issue i s).mode = s.mode := rfl
@[simp] theorem issue_sendPending (i : Instr) (s : State) : (issue i s).sendPending = s.sendPending := rfl
@[simp] theorem issue_trace (i : Instr) (s : State) : (issue i s).trace = s.trace := rfl
@[simp] theorem issue_resp (i : Instr) (s : State) : (issue i s).resp = s.resp := rfl

@[simp] theorem stop_block (r : Report) (d : HostDriver) : (d.stop r).block = d.block := rfl
@[simp] theorem stop_operations (r : Report) (d : HostDriver) : (d.stop r).operations = [] := rfl
@[simp] theorem stop_frames (r : Report) (d : HostDriver) : (d.stop r).frames = [] := rfl
@[simp] theorem stop_waiting (r : Report) (d : HostDriver) : (d.stop r).waiting = false := rfl
@[simp] theorem stop_shown (r : Report) (d : HostDriver) : (d.stop r).shown = d.shown := rfl
@[simp] theorem stop_target (r : Report) (d : HostDriver) : (d.stop r).target = d.target := rfl
@[simp] theorem stop_report (r : Report) (d : HostDriver) : (d.stop r).report = some r := rfl

theorem responseGiven_iff {s : State} : responseGiven s = true ↔ s.hostOps = [] ∧ s.sendPending = false := by
  simp [responseGiven]

/-- A host operation's own signals are at the port when it is issued. -/
theorem issue_hostOps {i : Instr} (hi : i.port = .host) (s : State) :
    ∃ p, (issue i s).hostOps = [p] ∧ decodeSignals p = i := by
  cases i <;> first | exact ⟨_, rfl, rfl⟩ | cases hi

/-- Between requests the driver makes no move. -/
theorem driverMove_of_report {d : HostDriver} {r : Report} (h : d.report = some r) : driverMove d = d := by
  simp [driverMove, h]

/-- A reset between requests changes nothing for the driver. -/
theorem seeReset_of_report {d : HostDriver} {r : Report} (h : d.report = some r) : seeReset d = d := by
  simp [seeReset, h]

/-- A system step is a step of the block, and then what the driver makes of it. -/
theorem systemStep_cases {d e : HostDriver} (h : systemStep d = .next e) :
    ∃ t, step d.block = .next t ∧
      (turn d.block = .reset ∧ e = seeReset { d with block := t } ∨
        turn d.block ≠ .reset ∧ e = driverMove { d with block := t }) := by
  unfold systemStep at h
  split at h
  · rename_i t ht
    cases h
    refine ⟨t, ht, ?_⟩
    split
    · rename_i hr; exact .inl ⟨hr, rfl⟩
    · rename_i hr; exact .inr ⟨hr, rfl⟩
  · cases h
  · cases h

/-- Between requests a system step is the block's step alone. -/
theorem systemStep_of_report {d : HostDriver} {r : Report} {t : State} (h : d.report = some r)
    (ht : step d.block = .next t) : systemStep d = .next { d with block := t } := by
  simp [systemStep, ht, seeReset, driverMove, h]

theorem systemRun_succ_of_step {d e : HostDriver} (h : systemStep d = .next e) (k : Nat) :
    systemRun (k + 1) d = systemRun k e := by
  simp [systemRun, h]

/-- A system run that answers a next state took its first step. -/
theorem systemRun_succ_cases {d f : HostDriver} {k : Nat} (h : systemRun (k + 1) d = .next f) :
    ∃ e, systemStep d = .next e ∧ systemRun k e = .next f := by
  rw [systemRun] at h
  cases hs : systemStep d with
  | next e => rw [hs] at h; exact ⟨e, rfl, h⟩
  | fault r => rw [hs] at h; cases h
  | refused r => rw [hs] at h; cases h

theorem packetsFlushed_append (a b : List TraceEvent) :
    packetsFlushed (a ++ b) = packetsFlushed a + packetsFlushed b := by
  induction a with
  | nil => simp [packetsFlushed]
  | cons e a ih => cases e <;> simp [packetsFlushed, ih]; omega

/-- Sending a frame is host operations alone. -/
theorem sendFrame_port {h w : Nat} {g : PixelGrid} {i : Instr} (hi : i ∈ sendFrame h w g) : i.port = .host := by
  simp only [sendFrame, loadFrame, List.mem_append, List.mem_flatMap, List.mem_map, List.mem_singleton] at hi
  rcases hi with ⟨_, _, _, _, rfl⟩ | rfl <;> rfl

end Sys2Proof.Machine
end

