-- ==== Sys2Proof/Laws/PerInstr.lean ====
section
/-! SUPPORT. Statements about every instruction as syntax, one lemma per constructor. -/

/-- An instruction is well-formed exactly when it has an encoding (`30_encoding.md` R69, R71). -/
def Sys2Proof.Laws.WellFormedEncodes.Statement (i : Sys2Proof.Instr) : Prop :=
  i.wellFormed = true ↔ ∃ bytes, Sys2Proof.encode i = .ok bytes

namespace Sys2Proof.Laws.WellFormedEncodes

theorem configure (addr : BitVec 8) (h w : BitVec 16) (baud margin : BitVec 32) :
    Statement (.configure addr h w baud margin) := ⟨fun _ => ⟨_, rfl⟩, fun _ => rfl⟩

theorem setpix (row col : BitVec 16) (v : Bool) : Statement (.setpix row col v) :=
  ⟨fun _ => ⟨_, rfl⟩, fun _ => rfl⟩

theorem getpix (row col : BitVec 16) : Statement (.getpix row col) := ⟨fun _ => ⟨_, rfl⟩, fun _ => rfl⟩

theorem send : Statement .send := ⟨fun _ => ⟨_, rfl⟩, fun _ => rfl⟩

theorem frame (addr : BitVec 8) (payload : Bytes) : Statement (.frame addr payload) := by
  unfold Statement
  by_cases h : addr.toNat ≤ 15 <;> simp [Instr.wellFormed, encode, h]

end Sys2Proof.Laws.WellFormedEncodes
end

