-- ==== Sys2Proof/Tests/Slice0.lean ====
section
/-! SUPPORT. The model's own tests. Every expected value is taken from the spec: its worked examples, its vectors
(`95_test_vectors.md`, named V-…) and words written out from its encodings. The last part shows, for every statement with
hypotheses, states and operands that meet them. -/

namespace Sys2Proof.Tests

open Sys2Proof Sys2Proof.Machine

/-! ## Helpers -/

/-- A value read from the next state; none where the outcome is a stop. -/
def after {α : Type} (o : Host.Outcome State Fault Refusal) (f : State → α) : Option α :=
  match o with
  | .next t => some (f t)
  | .fault _ => none
  | .refused _ => none

/-- The block configured as in the worked example of `43_host_operations.md` R141: address 2, one column of 8 rows. -/
def idleA : State := { State.reset with mode := .idle, addr := 2, h := 8, w := 1, baud := 9600, margin := 20 }

/-- The fully lit column of Scenario A. -/
def litColumn : Memory :=
  [(0, true), (65536, true), (131072, true), (196608, true), (262144, true), (327680, true), (393216, true),
   (458752, true)]

/-- Scenario A with its frame buffer loaded. -/
def loadedA : State := { idleA with fb := litColumn }

/-- The packet of Scenario A. -/
def packetA : Bytes := [0x02, 0x31, 0x32, 0x30, 0x31, 0x46, 0x46, 0x03, 0x41, 0x44]

/-- Scenario A in flight, with `n` bytes accepted. -/
def sendingA (n : Nat) : State :=
  { loadedA with mode := .tx, pkt := packetA, txi := n, sendPending := true, trace := .start 0 ::
      (packetA.take n).map (TraceEvent.byte · 0) }

/-- Scenario A with every byte accepted. -/
def flushingA : State := { sendingA 10 with mode := .flush }

/-- The block after a failed CONFIGURE (V-H2). -/
def faulted : State := { State.reset with mode := .fault, err := .configuration, resp := .configError }

/-- A frame buffer from its lit cells, listed in rising order of the key. -/
def lit (cells : List (Nat × Nat)) : Memory := cells.map fun rc => (cellKey rc.1 rc.2, true)

/-! ## Well-formedness: the one ill-formed term (`30_encoding.md` R69, `41_packet_framer.md` R90) -/

theorem test_frame_address_16_ill_formed : (Instr.frame 16 [0xFF]).wellFormed = false := by decide
theorem test_frame_address_16_not_encoded : encode (.frame 16 [0xFF]) = .error .addressAbove15 := by decide
theorem test_frame_address_15_well_formed : (Instr.frame 15 [0xFF]).wellFormed = true := by decide
theorem test_configure_illegal_operands_presentable : (Instr.configure 16 0 0 0 0).wellFormed = true := by decide

/-! ## Decoding: words written out from `30_encoding.md` R70 and R60 -/

/-- P3, operation 1: `CONFIGURE addr=15 h=10 w=2 baud=19200 margin=5`, the operands as Part 3 prints them. -/
theorem test_decode_configure :
    decode .host [0x00, 0x0F, 0x0A, 0x00, 0x02, 0x00, 0x00, 0x4B, 0x00, 0x00, 0x05, 0, 0, 0, 0, 0, 0, 0, 0]
      = .ok (.configure 15 10 2 19200 5) := by decide

/-- P5, operation 2: `SETPIX row=0x000F col=0x007F v=1`; the signals it does not list are ignored. -/
theorem test_decode_setpix :
    decode .host [0x01, 0xFF, 0xFF, 0xFF, 0, 0, 0, 0, 0, 0, 0, 0, 0, 0, 0x0F, 0x00, 0x7F, 0x00, 0x01]
      = .ok (.setpix 15 127 true) := by decide

theorem test_decode_getpix :
    decode .host [0x02, 0, 0, 0, 0, 0, 0, 0, 0, 0, 0, 0, 0, 0, 0xFF, 0xFF, 0x34, 0x12, 0x01]
      = .ok (.getpix 65535 0x1234) := by decide

theorem test_decode_send :
    decode .host [0x03, 0, 0, 0, 0, 0, 0, 0, 0, 0, 0, 0, 0, 0, 0xFF, 0xFF, 0, 0, 0] = .ok .send := by decide

/-- V-F7: address 10, payload `FF FF`. -/
theorem test_decode_frame :
    decode .wire [0x02, 0x31, 0x41, 0x30, 0x32, 0x46, 0x46, 0x46, 0x46, 0x03, 0x31, 0x31]
      = .ok (.frame 10 [0xFF, 0xFF]) := by decide

theorem test_decode_short_transaction : decode .host [0x03] = .error .transactionLength := by decide

/-! The rejections of `95_test_vectors.md` 2.3, all from V-F1. -/

theorem test_reject_stx :
    decode .wire [0x03, 0x31, 0x32, 0x30, 0x31, 0x46, 0x46, 0x03, 0x41, 0x44] = .error (.frame .stx) := by decide
theorem test_reject_etx :
    decode .wire [0x02, 0x31, 0x32, 0x30, 0x31, 0x46, 0x46, 0x30, 0x41, 0x44] = .error (.frame .etx) := by decide
theorem test_reject_checksum :
    decode .wire [0x02, 0x31, 0x32, 0x30, 0x31, 0x46, 0x46, 0x03, 0x41, 0x45] = .error (.frame .checksum) := by decide
theorem test_reject_lowercase :
    decode .wire [0x02, 0x31, 0x32, 0x30, 0x31, 0x66, 0x46, 0x03, 0x41, 0x44] = .error (.frame .hexDigit) := by decide
theorem test_reject_command :
    decode .wire [0x02, 0x32, 0x32, 0x30, 0x31, 0x46, 0x46, 0x03, 0x41, 0x44] = .error (.frame .command) := by decide
theorem test_reject_odd_length :
    decode .wire [0x02, 0x31, 0x32, 0x30, 0x31, 0x46, 0x46, 0x03, 0x41] = .error (.frame .length) := by decide
/-- V-F8's frame with resolution `"01"` and its checksum recomputed (`2A`). -/
theorem test_reject_resolution :
    decode .wire [0x02, 0x31, 0x41, 0x30, 0x31, 0x03, 0x32, 0x41] = .error (.frame .resolution) := by decide

/-! The rows of `spec/opcode_table.json` as table words, their operands 0. -/

theorem test_table_configure : decodeTableWord 8 0x0 = some (.configure 0 0 0 0 0) := by decide
theorem test_table_setpix : decodeTableWord 8 0x1 = some (.setpix 0 0 false) := by decide
theorem test_table_getpix : decodeTableWord 8 0x2 = some (.getpix 0 0) := by decide
theorem test_table_send : decodeTableWord 8 0x3 = some .send := by decide
/-- V-F1 as one number, its first byte least significant. -/
theorem test_table_frame : decodeTableWord 80 0x44410346463130323102 = some (.frame 2 [0xFF]) := by decide

/-- A presented SEND is the first thing that runs after reset; there it is refused at once (V-H15). -/
theorem test_fetch_send :
    after (step (State.reset.withFetchWord 8 0x3)) (fun t => (t.resp, t.refused, t.mode, t.hostOps, t.turns))
      = some (.refused, true, .unconf, [], []) := by decide
/-- A presented frame is in flight: its first byte is STX. -/
theorem test_fetch_frame :
    after (step (State.reset.withFetchWord 80 0x44410346463130323102)) (fun t => (t.trace, t.txi, t.answers))
      = some ([.byte 0x02 0], 1, []) := by decide

/-! ## The pure functions -/

/-- V-P7. -/
theorem test_pack_7_by_3 :
    pack (lit [(0, 0), (1, 1), (2, 2), (3, 0), (3, 2), (4, 1), (6, 0), (6, 1), (6, 2)]) 7 3 = [0x49, 0x52, 0x4C] := by
  decide
/-- V-P8: two groups a column. -/
theorem test_pack_10_by_2 :
    pack (lit [(0, 0), (1, 1), (2, 0), (3, 1), (4, 0), (5, 1), (6, 0), (7, 1), (8, 0), (8, 1), (9, 0)]) 10 2
      = [0x55, 0x03, 0xAA, 0x01] := by decide
/-- V-P13. -/
theorem test_pack_17_by_1 : pack (lit [(16, 0)]) 17 1 = [0x00, 0x00, 0x01] := by decide
/-- The round trip of V-P8, as `95_test_vectors.md` 2.1 computes it. -/
theorem test_unpack : unpack [0x55, 0x03, 0xAA, 0x01] 10 9 0 = true ∧ unpack [0x55, 0x03, 0xAA, 0x01] 10 9 1 = false := by
  decide

/-- `95_test_vectors.md` 2.2. -/
theorem test_hex2 : hex2 10 = [0x30, 0x41] ∧ hex2 16 = [0x31, 0x30] ∧ hex2 173 = [0x41, 0x44] := by decide
/-- V-F5: a body sum that is a multiple of 256. -/
theorem test_encode_checksum_zero :
    encodePacket 0 [0x3F, 0x00, 0x00]
      = [0x02, 0x31, 0x30, 0x30, 0x33, 0x33, 0x46, 0x30, 0x30, 0x30, 0x30, 0x03, 0x30, 0x30] := by decide
/-- V-F6. -/
theorem test_encode_address_15 :
    encodePacket 15 [0x55, 0x03, 0xAA, 0x01]
      = [0x02, 0x31, 0x46, 0x30, 0x34, 0x35, 0x35, 0x30, 0x33, 0x41, 0x41, 0x30, 0x31, 0x03, 0x37, 0x32] := by decide
/-- V-F11: 256 payload bytes wrap the resolution field. -/
theorem test_encode_wrap :
    (encodePacket 1 (List.replicate 256 0)).take 5 = [0x02, 0x31, 0x31, 0x30, 0x30] ∧
    (encodePacket 1 (List.replicate 256 0)).drop 517 = [0x03, 0x33, 0x42] := by decide +kernel
/-- V-I1, V-I2, V-I8, V-I10. -/
theorem test_interval : intervalOf 1000 10 10000 20 = 30 ∧ intervalOf 1000 10 9600 20 = 31 ∧
    intervalOf 1000 520 9600 20 = 562 ∧ intervalOf 1 10 9600 0 = 1 := by decide

/-! ## One step each: the host operations (`95_test_vectors.md` 2.6) -/

/-- V-H1. -/
theorem test_configure_ok :
    after (exec (.configure 0 7 28 57600 30) State.reset) (fun t => (t.resp, t.mode, t.h, packetLength t))
      = some (.ok, .idle, 7, 64) := by decide
/-- V-H2. -/
theorem test_configure_error : after (exec (.configure 16 7 28 57600 30) State.reset) id = some faulted := by decide
/-- V-H9, on Scenario A's panel: the last row. -/
theorem test_setpix_ok :
    after (exec (.setpix 7 0 true) idleA) (fun t => (t.resp, t.refused, readCell t 7 0, readCell t 6 0))
      = some (.ok, false, true, false) := by decide
/-- The worked example of R142: row 8 of 8 rows. -/
theorem test_setpix_refused :
    after (exec (.setpix 8 0 true) idleA) (fun t => (t.resp, t.refused, t.fb)) = some (.refused, true, []) := by decide
/-- V-H12. -/
theorem test_getpix_ok : after (exec (.getpix 7 0) loadedA) (fun t => (t.resp, t.rdata)) = some (.ok, true) := by decide
/-- V-H13. -/
theorem test_getpix_refused :
    after (exec (.getpix 65535 65535) { loadedA with rdata := true }) (fun t => (t.resp, t.rdata, t.refused))
      = some (.refused, false, true) := by decide
/-- P1, operation 10: the SEND is outstanding, and START is the sequencer's (R144), here after one tick of the clock. -/
theorem test_send_outstanding :
    after (exec .send loadedA) (fun t => (t.mode, t.sendPending, t.trace)) = some (.idle, true, []) ∧
    after (agentStep .sequencer { loadedA with sendPending := true, now := 1 }) (fun t => (t.mode, t.pkt, t.trace))
      = some (.tx, packetA, [.start 1]) := by decide
/-- V-T2: with `TIMER = 2` the SEND is held. -/
theorem test_send_held :
    after (exec .send { loadedA with timer := 2 }) (fun t => (t.mode, t.sendPending, t.trace, t.timer))
      = some (.idle, true, [], 2) ∧
    after (agentStep .sequencer { loadedA with timer := 2, sendPending := true }) (fun t => (t.mode, t.trace))
      = some (.idle, []) := by decide
/-- The tenth TXBYTE of Scenario A sets `MODE <- FLUSH` (R112). -/
theorem test_frame_last_byte :
    after (exec (.frame 2 [0xFF]) { sendingA 9 with answers := [.ok] }) (fun t => (t.mode, t.txi, t.trace.getLast?))
      = some (.flush, 10, some (.byte 0x44 0)) := by decide
/-- V-T4: an error on the first byte. -/
theorem test_frame_write_fails :
    after (exec (.frame 2 [0xFF]) { sendingA 0 with answers := [.err] })
        (fun t => (t.mode, t.err, t.resp, t.txi, t.trace))
      = some (.fault, .channel, .channelError, 0, [.start 0, .writeFail 0x02 0]) := by decide
/-- V-T1: the timer saturates. -/
theorem test_tick : (tick { idleA with timer := 3 }).timer = 2 ∧ (tick idleA).timer = 0 := by decide

/-! ## The host software (`95_test_vectors.md` 2.7, S-B, S-C), outside the block -/

theorem test_roll : rollTransition ['A', 'B', 'C'] ['X', 'Y', 'Z']
    = [['X', 'A', 'B'], ['X', 'Y', 'A'], ['X', 'Y', 'Z']] := by decide
theorem test_scroll_offsets : scrollOffsets 5 3 3 = [0, 3, 6, 8] ∧ scrollOffsets 5 3 4 = [0, 4, 8] ∧
    scrollOffsets 10 4 7 = [0, 7, 14] := by decide
theorem test_dedupe : dedupe [1, 1, 2, 2, 2, 1] = [1, 2, 1] := by decide
theorem test_load_frame : loadFrame 2 1 [[true], [false]] = [.setpix 0 0 true, .setpix 1 0 false] := by decide

/-! ## Witnesses: states and operands that meet the hypotheses of each statement -/

/-- Scenario A, loaded and idle, meets the invariant. -/
theorem inv_idle : BlockInv (loadedA) where
  canonical := by decide
  inGrid := by unfold cellsInRange; decide
  errorOnlyInFault := by decide
  unconfigured := by unfold blank; decide
  configurationError := by unfold blank; decide
  legal := fun _ => by unfold configured; decide
  packetLengthKept := by decide
  packetBuilt := by decide
  indexBounded := by decide
  indexInTx := by decide
  indexInFlush := by decide
  outstanding := by decide
  timerBounded := Nat.zero_le _

/-- Scenario A at its first byte meets the invariant. -/
theorem inv_tx : BlockInv (sendingA 0) where
  canonical := by decide
  inGrid := by unfold cellsInRange; decide
  errorOnlyInFault := by decide
  unconfigured := by unfold blank; decide
  configurationError := by unfold blank; decide
  legal := fun _ => by unfold configured; decide
  packetLengthKept := by decide
  packetBuilt := by decide
  indexBounded := by decide
  indexInTx := by decide
  indexInFlush := by decide
  outstanding := by decide
  timerBounded := Nat.zero_le _

/-- Scenario A with every byte accepted meets the invariant. -/
theorem inv_flush : BlockInv (flushingA) where
  canonical := by decide
  inGrid := by unfold cellsInRange; decide
  errorOnlyInFault := by decide
  unconfigured := by unfold blank; decide
  configurationError := by unfold blank; decide
  legal := fun _ => by unfold configured; decide
  packetLengthKept := by decide
  packetBuilt := by decide
  indexBounded := by decide
  indexInTx := by decide
  indexInFlush := by decide
  outstanding := by decide
  timerBounded := Nat.zero_le _

/-- A state is given its environment: the host's operations, the channel's answers and the turns. -/
def under (s : State) (ops : List PortSignals) (as : List Answer) (ts : List Turn) : State :=
  { s with hostOps := ops, answers := as, turns := ts }

/-- The invariant does not read the environment. -/
theorem inv_under {s : State} (h : BlockInv s) (ops : List PortSignals) (as : List Answer) (ts : List Turn) :
    BlockInv (under s ops as ts) :=
  ⟨h.canonical, h.inGrid, h.errorOnlyInFault, h.unconfigured, h.configurationError, h.legal, h.packetLengthKept,
    h.packetBuilt, h.indexBounded, h.indexInTx, h.indexInFlush, h.outstanding, h.timerBounded⟩

theorem witness_ResetRestoresResetValues : turn (under (sendingA 9) [] [] [.reset, .clock]) = .reset := rfl

theorem witness_StepRunsDecodedOperation :
    (under loadedA [sendSignals] [] [.host]).turns = .host :: [] ∧
    (under loadedA [sendSignals] [] [.host]).hostOps = sendSignals :: [] ∧
    portBusy (under loadedA [sendSignals] [] [.host]) = false ∧
    signalsOfBytes [3, 0, 0, 0, 0, 0, 0, 0, 0, 0, 0, 0, 0, 0, 0, 0, 0, 0, 0] = some sendSignals ∧
    decode .host [3, 0, 0, 0, 0, 0, 0, 0, 0, 0, 0, 0, 0, 0, 0, 0, 0, 0, 0] = .ok .send :=
  ⟨rfl, rfl, by decide, by decide, by decide⟩

theorem witness_StepRunsFrameInFlight :
    (under (sendingA 0) [] [.ok] [.sequencer]).turns = .sequencer :: [] ∧
    (under (sendingA 0) [] [.ok] [.sequencer]).mode = .tx ∧ (under flushingA [] [.ok] [.sequencer]).mode = .flush ∧
    decode .wire (under (sendingA 0) [] [.ok] [.sequencer]).pkt = .ok (.frame 2 [0xFF]) ∧
    decode .wire (under flushingA [] [.ok] [.sequencer]).pkt = .ok (.frame 2 [0xFF]) :=
  ⟨rfl, rfl, rfl, by decide, by decide⟩

theorem witness_StepOfWaitingAgents :
    (under idleA [] [] [.clock]).turns = .clock :: [] ∧ State.reset.turns = [] ∧
    ((under (sendingA 0) [sendSignals] [] [.host]).turns = .host :: [] ∧
      portBusy (under (sendingA 0) [sendSignals] [] [.host]) = true) ∧
    (under idleA [] [] [.host]).hostOps = [] ∧ (under idleA [] [] [.reset]).turns = .reset :: [] ∧
    ((under (sendingA 0) [] [] [.sequencer]).mode = .tx ∧ (under (sendingA 0) [] [] [.sequencer]).answers = []) :=
  ⟨rfl, rfl, ⟨rfl, by decide⟩, rfl, rfl, rfl, rfl⟩

/-- The three clauses: refused in `IDLE`; an illegal operand (`addr = 16`, then each zero); legal at the bounds. -/
theorem witness_ConfigureEffect :
    portBusy idleA = false ∧ idleA.mode ≠ .unconf ∧ portBusy State.reset = false ∧ State.reset.mode = .unconf ∧
    15 < (16 : BitVec 8).toNat ∧ (15 : BitVec 8).toNat ≤ 15 ∧ (1 : BitVec 16) ≠ 0 ∧ (0xFFFF : BitVec 16) ≠ 0 ∧
    (1 : BitVec 32) ≠ 0 := by decide

/-- The two clauses at the last row and just past it. -/
theorem witness_SetpixEffect :
    portBusy loadedA = false ∧ loadedA.mode = .idle ∧ (7 : BitVec 16).toNat < loadedA.h.toNat ∧
    (0 : BitVec 16).toNat < loadedA.w.toNat ∧ Memory.wf loadedA.fb ∧ loadedA.h.toNat ≤ (8 : BitVec 16).toNat ∧
    loadedA.w.toNat ≤ (1 : BitVec 16).toNat ∧ portBusy State.reset = false ∧ State.reset.mode ≠ .idle := by decide

theorem witness_GetpixEffect :
    portBusy loadedA = false ∧ loadedA.mode = .idle ∧ (7 : BitVec 16).toNat < loadedA.h.toNat ∧
    (0 : BitVec 16).toNat < loadedA.w.toNat ∧ loadedA.h.toNat ≤ (8 : BitVec 16).toNat ∧
    loadedA.w.toNat ≤ (1 : BitVec 16).toNat ∧ portBusy faulted = false ∧ faulted.mode ≠ .idle := by decide

/-- `UNCONF` and `FAULT`; `IDLE` with `TIMER = 0` and `TIMER = 1`. -/
theorem witness_SendEffect :
    (portBusy State.reset = false ∧ State.reset.mode = .unconf) ∧ (portBusy faulted = false ∧ faulted.mode = .fault) ∧
    (portBusy loadedA = false ∧ loadedA.mode = .idle) ∧ portBusy { loadedA with timer := 1 } = false := by decide

/-- Occupied by a held SEND, by a packet in flight, and while it is flushed. -/
theorem witness_OccupiedPortHasNoEffect :
    Instr.send.port = .host ∧ portBusy { loadedA with sendPending := true, timer := 1 } = true ∧
    portBusy (sendingA 0) = true ∧ portBusy flushingA = true := by decide

theorem witness_RefusedExactlyInListedCases : portBusy State.reset = false ∧ portBusy loadedA = false := by decide

theorem witness_ReadyMeansSendStartsAtOnce : portBusy loadedA = false ∧ (statusOutputs loadedA).ready = true ∧
    portBusy { loadedA with timer := 1 } = false ∧ (statusOutputs { loadedA with timer := 1 }).ready = false := by
  decide

theorem witness_StartLatchesPacket :
    ({ loadedA with sendPending := true }).mode = .idle ∧ ({ loadedA with sendPending := true }).sendPending = true ∧
    ({ loadedA with sendPending := true }).timer = 0 ∧ loadedA.mode = .idle ∧ loadedA.sendPending = false ∧
    ({ loadedA with sendPending := true, timer := 1 }).timer ≠ 0 := by decide

/-- The three clauses, at the first byte and at the last. -/
theorem witness_TxbyteWritesNextByte :
    (sendingA 0).mode = .tx ∧ (sendingA 0).pkt[(sendingA 0).txi]? = some 0x02 ∧
    (sendingA 9).pkt[(sendingA 9).txi]? = some 0x44 ∧ (under (sendingA 0) [] [.ok] []).answers = .ok :: [] ∧
    (under (sendingA 9) [] [.err] []).answers = .err :: [] := by decide

theorem witness_TxflushEndsPacket :
    flushingA.mode = .flush ∧ (under flushingA [] [.ok] []).answers = .ok :: [] ∧
    (under flushingA [] [.err] []).answers = .err :: [] := by decide

/-- The frame in flight at its first byte, at its last, and flushed, with either answer. -/
theorem witness_FrameRunsNextTransaction :
    (sendingA 0).pkt = encodePacket 2 [0xFF] ∧ (sendingA 0).mode = .tx ∧
    (sendingA 9).txi < (encodePacket 2 [0xFF]).length ∧ flushingA.pkt = encodePacket 2 [0xFF] ∧
    flushingA.mode = .flush ∧ (under flushingA [] [.ok] []).answers.head? = some .ok ∧
    (under (sendingA 0) [] [.err] []).answers.head? = some .err := by decide

/-- Address 16; address 15 in `IDLE`; another frame than the one in flight. -/
theorem witness_FrameNotInFlightRefused :
    15 < (16 : BitVec 8).toNat ∧ (15 : BitVec 8).toNat ≤ 15 ∧ (idleA.mode ≠ .tx ∧ idleA.mode ≠ .flush) ∧
    (sendingA 0).pkt ≠ encodePacket ((15 : BitVec 8).setWidth 4) [0xFF] := by decide

/-- A tick at `TIMER = 1` and at `TIMER = 0`. -/
theorem witness_TickCountsDown :
    (({ idleA with timer := 1 }).timer = 0 + 1 ∧ ∃ t, agentStep .clock { idleA with timer := 1 } = .next t) ∧
    (idleA.timer = 0 ∧ ∃ t, agentStep .clock idleA = .next t) :=
  ⟨⟨rfl, _, rfl⟩, rfl, _, rfl⟩

/-- Steps exist, and rows of the table happen: CONFIGURE, the last byte, a failed flush, RESET. -/
theorem witness_ModeFollowsTransitionTable :
    (∃ t, step (under State.reset [configureSignals 2 8 1 9600 20] [] [.host]) = .next t ∧ t.mode = .idle) ∧
    ModeTable (under State.reset [configureSignals 2 8 1 9600 20] [] [.host]) .idle ∧
    ModeTable (under (sendingA 9) [] [.ok] [.sequencer]) .flush ∧
    ModeTable (under flushingA [] [.err] [.sequencer]) .fault ∧ ModeTable (under faulted [] [] [.reset]) .unconf :=
  ⟨⟨_, rfl, rfl⟩, .configured (addr := 2) (h := 8) (w := 1) (baud := 9600) (margin := 20) rfl rfl (by decide),
    .lastByteWritten ⟨rfl, rfl, rfl⟩ (by decide), .flushFailed ⟨rfl, rfl, rfl⟩, .reset rfl⟩

/-- In `FAULT`: the clock's turn, the host's with a SEND, the sequencer's. -/
theorem witness_FaultIsFinal :
    faulted.mode = .fault ∧
    (turn (under faulted [] [] [.clock]) = .clock ∧ ∃ t, step (under faulted [] [] [.clock]) = .next t) ∧
    (operationTaken (under faulted [sendSignals] [] [.host]) ≠ none ∧
      ∃ t, step (under faulted [sendSignals] [] [.host]) = .next t) ∧
    (turn (under faulted [] [.ok] [.sequencer]) = .sequencer ∧
      ∃ t, step (under faulted [] [.ok] [.sequencer]) = .next t) :=
  ⟨rfl, ⟨rfl, _, rfl⟩, ⟨by decide, _, rfl⟩, rfl, _, rfl⟩

/-- Steps that write: CONFIGURE writes `H`, SETPIX writes `FB`, TXBYTE writes `TXI`, TICK writes `NOW`. -/
theorem witness_RegistersWrittenOnlyAsListed :
    (∃ t, step (under State.reset [configureSignals 2 8 1 9600 20] [] [.host]) = .next t ∧ t.h ≠ 0) ∧
    (∃ t, step (under idleA [setpixSignals 7 0 true] [] [.host]) = .next t ∧ t.fb ≠ idleA.fb) ∧
    (∃ t, step (under (sendingA 0) [] [.ok] [.sequencer]) = .next t ∧ t.txi ≠ (sendingA 0).txi) ∧
    (∃ t, step (under idleA [] [] [.clock]) = .next t ∧ t.now ≠ idleA.now) ∧
    turn (under idleA [] [] [.clock]) ≠ .reset :=
  ⟨⟨_, rfl, by decide⟩, ⟨_, rfl, by decide⟩, ⟨_, rfl, by decide⟩, ⟨_, rfl, by decide⟩, by decide⟩

theorem witness_OneTransactionPerStep : ∃ t, step (under (sendingA 0) [] [.ok, .err] [.sequencer]) = .next t ∧
    t.answers = [.err] ∧ t.trace = [.start 0, .byte 0x02 0] := ⟨_, rfl, by decide, by decide⟩

theorem witness_SequencerIgnoresFrameBuffer :
    (sendingA 0).mode = .tx ∧ ∃ t, agentStep .sequencer (under (sendingA 0) [] [.ok] []) = .next t := ⟨rfl, _, rfl⟩

theorem witness_StepKeepsInvariant : ∃ t, BlockInv (under (sendingA 0) [] [.ok] [.sequencer]) ∧
    step (under (sendingA 0) [] [.ok] [.sequencer]) = .next t := ⟨_, inv_under inv_tx _ _ _, rfl⟩

theorem witness_StepNeverStops : BlockInv loadedA ∧ BlockInv (sendingA 0) ∧ BlockInv flushingA :=
  ⟨inv_idle, inv_tx, inv_flush⟩

theorem witness_StepKeepsPrefixOnWire : ∃ t, BlockInv (under (sendingA 0) [] [.ok] [.sequencer]) ∧
    prefixOnWire (under (sendingA 0) [] [.ok] [.sequencer]) ∧
    step (under (sendingA 0) [] [.ok] [.sequencer]) = .next t :=
  ⟨_, inv_under inv_tx _ _ _, fun _ => by decide, rfl⟩

theorem witness_OkMeansWholeFrameAccepted : ∃ t, BlockInv (under flushingA [] [.ok] [.sequencer]) ∧
    prefixOnWire (under flushingA [] [.ok] [.sequencer]) ∧ (under flushingA [] [.ok] [.sequencer]).mode = .flush ∧
    step (under flushingA [] [.ok] [.sequencer]) = .next t ∧ t.mode = .idle :=
  ⟨_, inv_under inv_flush _ _ _, fun _ => by decide, rfl, rfl, rfl⟩

/-- Scenario A flushed at `NOW = 0`, with `TIMER` at its interval and the next SEND outstanding. -/
def flushedA : State :=
  { loadedA with pkt := packetA, txi := 10, timer := intervalTicks loadedA, sendPending := true, turns := [.clock],
                 trace := .start 0 :: packetA.map (TraceEvent.byte · 0) ++ [.flush 0] }

theorem inv_flushed : BlockInv flushedA where
  canonical := by decide
  inGrid := by unfold cellsInRange; decide
  errorOnlyInFault := by decide
  unconfigured := by intro h; cases h
  configurationError := by intro h; cases h
  legal := fun _ => by unfold configured; decide
  packetLengthKept := by decide
  packetBuilt := by decide
  indexBounded := by decide
  indexInTx := by decide
  indexInFlush := by decide
  outstanding := by decide
  timerBounded := (intervalTicks_congr (s := flushedA) (t := loadedA) rfl rfl rfl rfl).le

theorem startStamps_flushed : startStamps flushedA.trace = [0] := rfl

/-- The packet's `Start` is at the bound: no tick has passed since. -/
theorem paced_flushed : paced flushedA := by
  refine ⟨(by intro h; cases h), startStamps_flushed ▸ trivial, fun a h => ?_⟩
  rw [startStamps_flushed] at h
  obtain rfl : 0 = a := Option.some.inj h
  have e := intervalTicks_congr (s := loadedA) (t := flushedA) rfl rfl rfl rfl
  have ht : flushedA.timer = intervalTicks loadedA := rfl
  rw [e, ht]
  exact Nat.add_le_add_right (Nat.zero_le _) _

/-- A packet has started, the bound is met with equality, and the step is a TICK. -/
theorem witness_StepKeepsPacing : ∃ t, BlockInv flushedA ∧ paced flushedA ∧ turn flushedA ≠ .reset ∧
    startStamps flushedA.trace = [0] ∧ step flushedA = .next t := by
  refine ⟨_, inv_flushed, paced_flushed, ?_, startStamps_flushed, step_clock (ts := []) rfl⟩
  rw [turn_of_cons (s := flushedA) (ts := []) rfl]
  decide

/-- A packet in flight, and the step is TXBYTE. -/
theorem witness_StepKeepsEventsInOrder : ∃ t, BlockInv (under (sendingA 0) [] [.ok] [.sequencer]) ∧
    eventsInOrder (under (sendingA 0) [] [.ok] [.sequencer]) ∧
    turn (under (sendingA 0) [] [.ok] [.sequencer]) ≠ .reset ∧
    step (under (sendingA 0) [] [.ok] [.sequencer]) = .next t :=
  ⟨_, inv_under inv_tx _ _ _, by unfold eventsInOrder; decide, by decide, rfl⟩

/-- A run with a `Start`: SEND is accepted, START and the first byte follow. -/
theorem witness_PacingGuarantee : ∃ t, BlockInv (under loadedA [sendSignals] [.ok] [.host, .sequencer, .sequencer]) ∧
    noReset (under loadedA [sendSignals] [.ok] [.host, .sequencer, .sequencer]) ∧
    run 3 (under loadedA [sendSignals] [.ok] [.host, .sequencer, .sequencer]) = .next t ∧
    t.trace = [] ++ [.start 0, .byte 0x02 0] :=
  ⟨_, inv_under inv_idle _ _ _, by unfold noReset; decide, rfl, by decide⟩

theorem witness_ChannelEventsInOrder : ∃ t, BlockInv (under loadedA [sendSignals] [.ok] [.host, .sequencer, .sequencer]) ∧
    noReset (under loadedA [sendSignals] [.ok] [.host, .sequencer, .sequencer]) ∧
    (under loadedA [sendSignals] [.ok] [.host, .sequencer, .sequencer]).trace = [] ∧
    (under loadedA [sendSignals] [.ok] [.host, .sequencer, .sequencer]).mode = .idle ∧
    run 3 (under loadedA [sendSignals] [.ok] [.host, .sequencer, .sequencer]) = .next t ∧ t.mode = .tx :=
  ⟨_, inv_under inv_idle _ _ _, by unfold noReset; decide, rfl, rfl, rfl, rfl⟩

/-- Scenario A with eleven `ok` answers, a turn for START and eleven more: the environment of P1. -/
def senderA : State :=
  under loadedA [sendSignals] (List.replicate 11 .ok) (.host :: .sequencer :: List.replicate 11 .sequencer)

theorem witness_SendDeliversFrame :
    senderA.mode = .idle ∧ senderA.timer = 0 ∧ portBusy senderA = false ∧ senderA.hostOps = sendSignals :: [] ∧
    senderA.answers = List.replicate (packetLength senderA + 1) .ok ++ [] ∧
    senderA.turns = .host :: .sequencer :: (List.replicate (packetLength senderA + 1) .sequencer ++ []) := by decide

/-- The channel accepts five bytes of Scenario A and fails the sixth. -/
theorem witness_ChannelFailureStopsPacket :
    BlockInv (under (sendingA 0) [] [.ok, .ok, .ok, .ok, .ok, .err]
      [.sequencer, .sequencer, .sequencer, .sequencer, .sequencer, .sequencer]) ∧
    (sendingA 0).mode = .tx ∧ (sendingA 0).txi = 0 ∧ (sendingA 0).pkt[5]? = some 0x46 ∧
    [Answer.ok, .ok, .ok, .ok, .ok, .err] = List.replicate 5 .ok ++ .err :: [] ∧
    [Turn.sequencer, .sequencer, .sequencer, .sequencer, .sequencer, .sequencer]
      = List.replicate (5 + 1) .sequencer ++ [] :=
  ⟨inv_under inv_tx _ _ _, by decide, by decide, by decide, by decide, by decide⟩

/-- V-T2 with one tick (still held) and with two (started). -/
theorem witness_HeldSendStartsWhenTimerExpires :
    ({ loadedA with sendPending := true, timer := 2 }).mode = .idle ∧
    ({ loadedA with sendPending := true, timer := 2 }).sendPending = true ∧ (1 < 2 ∧ 2 = 2) ∧
    [Turn.clock, .sequencer] = List.replicate 1 .clock ++ .sequencer :: [] ∧
    [Turn.clock, .clock, .sequencer] = List.replicate 2 .clock ++ .sequencer :: [] := by decide

/-- The last byte of V-P13 and its last bit. -/
theorem witness_PackLayout : 0 < 1 ∧ 2 < (17 + 7) / 8 ∧ 7 < 8 := by decide

theorem witness_UnpackInvertsPack : 16 < 17 ∧ 0 < 1 := by decide

theorem witness_PackInjectiveOnGrids : BlockInv loadedA ∧ BlockInv flushingA ∧ loadedA.h = flushingA.h ∧
    loadedA.w = flushingA.w ∧ pack loadedA.fb loadedA.h.toNat loadedA.w.toNat
      = pack flushingA.fb flushingA.h.toNat flushingA.w.toNat := ⟨inv_idle, inv_flush, rfl, rfl, rfl⟩

theorem witness_FrameLayout : ([0x55, 0x03, 0xAA, 0x01] : Bytes)[3]? = some 0x01 ∧ (0x02 : Byte) ∈ packetA := by decide

/-- The first byte, ETX and the last byte of Scenario A. -/
theorem witness_DelimitersOccurOnce : (encodePacket 2 [0xFF])[0]? = some 0x02 ∧ (encodePacket 2 [0xFF])[7]? = some 0x03 ∧
    (encodePacket 2 [0xFF])[9]? = some 0x44 := by decide

theorem witness_HexDigitsAreUppercaseAscii : (9 : BitVec 4).toNat ≤ 9 ∧ 10 ≤ (10 : BitVec 4).toNat := by decide

theorem witness_DedupeCollapsesRuns : List.Sublist [([1] : Bytes), [2]] [[1], [1], [2]] ∧
    [([1] : Bytes), [2]].IsChain (· ≠ ·) := by decide

/-- V-F5's body. -/
theorem witness_ChecksumMakesBodySumToZero : ((body 0 [0x3F, 0x00, 0x00]).map BitVec.toNat).sum % 256 = 0 := by decide

theorem witness_DecodeInvertsEncode : (Instr.frame 15 [0x80]).wellFormed = true ∧
    (Instr.configure 255 0 0xFFFF 0 0xFFFFFFFF).wellFormed = true := by decide

theorem witness_DecodeAcceptsOnlyFrames : decode .wire packetA = .ok (.frame 2 [0xFF]) := by decide

theorem witness_OperationCodesSelectOperations :
    PortSignals.zero.op.toNat = 0 ∧ (setpixSignals 1 2 true).op.toNat = 1 ∧ (getpixSignals 1 2).op.toNat = 2 ∧
    sendSignals.op.toNat = 3 := by decide

theorem witness_IntervalIsLeastWholeNumberOfTicks : 0 < 9600 ∧ configured loadedA ∧
    10 * 10 * 1000 + 9600 * 20 ≤ 9600 * 31 ∧ loadedA.mode ≠ .unconf ∧ turn loadedA ≠ .reset ∧
    ∃ t, step loadedA = .next t := ⟨by decide, by unfold configured; decide, by decide, by decide, by decide, _, rfl⟩

theorem witness_LoadFrameLoadsGrid : BlockInv loadedA ∧ loadedA.mode = .idle ∧ portBusy loadedA = false ∧
    7 < loadedA.h.toNat ∧ 0 < loadedA.w.toNat := ⟨inv_idle, by decide, by decide, by decide, by decide⟩

theorem witness_RollUncoversNewFrame : ([[true], [false]] : PixelGrid).length = ([[false], [true]] : PixelGrid).length ∧
    1 ≤ 2 ∧ 2 ≤ ([[false], [true]] : PixelGrid).length := by decide

/-- V-A2's bitmap of width 5 on a panel of width 3, with a step that is clamped. -/
theorem witness_ScrollCrossesThePanel : 0 < 3 ∧ 0 < 3 ∧
    (∀ row ∈ ([[true, true, true, true, true]] : PixelGrid), row.length = 5) ∧ 2 * 3 < 5 + 3 ∧
    (scrollOffsets 5 3 3)[3]? = some 8 ∧ ∃ f, (scroll [[true, true, true, true, true]] 5 3 3)[3]? = some f :=
  ⟨by decide, by decide, by decide, by decide, by decide, _, rfl⟩

/-- The driver whose SEND of Scenario A's frame is flushed next. -/
def drivingA (a : Answer) : HostDriver :=
  { block := under flushingA [] [a] [.sequencer], h := 8, w := 1, operations := [], frames := [], waiting := true,
    shown := blankGrid 8 1, target := [[true]], report := none }

/-- The value read from a system step. -/
def afterSystem {α : Type} (o : Host.Outcome HostDriver Fault Refusal) (f : HostDriver → α) : Option α :=
  match o with
  | .next t => some (f t)
  | .fault _ => none
  | .refused _ => none

/-- R168: `CHANNEL_ERROR` ends the request and leaves DisplayState. -/
theorem test_driver_stops :
    afterSystem (systemStep (drivingA .err)) (fun e => (e.report, e.shown == blankGrid 8 1, e.waiting))
      = some (some (.failed .channelError), true, false) := by decide
/-- R167: after the last `OK` the driver goes on, and with nothing left it commits. -/
theorem test_driver_commits :
    afterSystem (systemStep (drivingA .ok)) (fun e => (e.report, e.waiting)) = some (none, false) ∧
    (driverMove { drivingA .ok with waiting := false }).shown = [[true]] := by decide

theorem witness_FailedSendStopsHost :
    BlockInv (drivingA .err).block ∧ (drivingA .err).report = none ∧ (drivingA .err).waiting = true ∧
    (drivingA .err).block.hostOps = [] ∧ transaction .flush .err (drivingA .err).block :=
  ⟨inv_under inv_flush _ _ _, rfl, rfl, rfl, rfl, rfl, rfl⟩

/-- A driver at startup over Scenario A's block, and one step of a request. -/
theorem witness_DisplayStateCommittedOnlyWhenAllSent :
    BlockInv (HostDriver.startup loadedA 8 1).block ∧ (HostDriver.startup loadedA 8 1).report = some .delivered ∧
    (HostDriver.startup loadedA 8 1).block.hostOps = [] ∧ (HostDriver.startup loadedA 8 1).block.sendPending = false ∧
    ∃ e, systemRun 1 (beginDisplay [[true]] 1 1 false (HostDriver.startup loadedA 8 1)) = .next e :=
  ⟨inv_idle, rfl, rfl, rfl, _, rfl⟩

end Sys2Proof.Tests
end

section
/-! PROOFS. The layout of `PACK` (`40_column_packer.md` R81, R82): where each byte stands, and what each of its bits is. -/

namespace Sys2Proof.Machine

theorem indicator_eq_toNat (p : Bool) : indicator p = p.toNat := by cases p <;> rfl

/-- The sum of `COLBYTE` (`40_column_packer.md` R81) over the first `n` bits, for any choice `p` of the bits that are 1. -/
def indicatorSum (p : Nat → Bool) (n : Nat) : Nat := ((List.range n).map fun k => 2 ^ k * indicator (p k)).sum

theorem colByte_eq_indicatorSum (fb : Memory) (h c g : Nat) :
    colByte fb h c g = BitVec.ofNat 8
      (indicatorSum (fun k => decide (8 * g + k < h) && Memory.read fb (cellKey (8 * g + k) c)) 8) := rfl

@[simp] theorem indicatorSum_zero (p : Nat → Bool) : indicatorSum p 0 = 0 := rfl

theorem indicatorSum_succ (p : Nat → Bool) (n : Nat) :
    indicatorSum p (n + 1) = 2 ^ n * (p n).toNat + indicatorSum p n := by
  simp [indicatorSum, List.range_succ, indicator_eq_toNat, Nat.add_comm]

theorem indicatorSum_lt (p : Nat → Bool) (n : Nat) : indicatorSum p n < 2 ^ n := by
  induction n with
  | zero => simp
  | succ n ih =>
    rw [indicatorSum_succ, Nat.pow_succ]
    cases p n <;> simp <;> omega

/-- A sum of powers of two with distinct exponents has the chosen bits: no addition carries. -/
theorem testBit_indicatorSum (p : Nat → Bool) {n k : Nat} (hk : k < n) : (indicatorSum p n).testBit k = p k := by
  induction n with
  | zero => omega
  | succ n ih =>
    rw [indicatorSum_succ, Nat.testBit_two_pow_mul_add _ (indicatorSum_lt p n)]
    obtain hlt | rfl : k < n ∨ k = n := by omega
    · rw [if_pos hlt, ih hlt]
    · cases p k <;> simp

/-- Bit `k` of `COLBYTE` is row `8*g + k` of the column, and 0 from row `H` on (`40_column_packer.md` R81). -/
theorem colByte_getLsbD (fb : Memory) (h c g : Nat) {k : Nat} (hk : k < 8) :
    (colByte fb h c g).getLsbD k = (decide (8 * g + k < h) && Memory.read fb (cellKey (8 * g + k) c)) := by
  rw [colByte_eq_indicatorSum, BitVec.getLsbD_ofNat, testBit_indicatorSum _ hk, decide_eq_true hk, Bool.true_and]

/-- One more column is packed after the columns before it (`40_column_packer.md` R82). -/
theorem pack_succ (fb : Memory) (h w : Nat) :
    pack fb h (w + 1) = pack fb h w ++ (List.range (groups h)).map (colByte fb h w) := by
  simp [pack, List.range_succ]

/-- Byte `c*G + g` of `PACK` is the byte of group `g` of column `c` (`40_column_packer.md` R82). -/
theorem pack_getElem? (fb : Memory) {h w c g : Nat} (hc : c < w) (hg : g < groups h) :
    (pack fb h w)[c * groups h + g]? = some (colByte fb h c g) := by
  induction w with
  | zero => omega
  | succ w ih =>
    rw [pack_succ]
    obtain hlt | rfl : c < w ∨ c = w := by omega
    · have hin : c * groups h + g < w * groups h := by
        calc c * groups h + g < (c + 1) * groups h := by rw [Nat.succ_mul]; omega
          _ ≤ w * groups h := Nat.mul_le_mul_right _ hlt
      rw [List.getElem?_append_left (by simpa using hin), ih hlt]
    · rw [List.getElem?_append_right (by simp)]
      simp [hg]

/-- Settles O34: each byte stands at its column and group (`pack_getElem?`), and its bits are the column's rows
(`colByte_getLsbD`). -/
theorem packLayout : Obligations.PackLayout := by
  intro fb h w
  refine ⟨pack_length fb h w, fun c g hc hg => ⟨colByte fb h c g, pack_getElem? fb hc hg, fun k hk => ?_⟩⟩
  simp [colByte_getLsbD fb h c g hk, and_comm]

end Sys2Proof.Machine
end

section
/-! PROOFS. The wire frame byte by byte (`30_encoding.md` R60 to R66), and the codes of the host port (R70). -/

namespace Sys2Proof.Machine

/-! ### The hex digits -/

theorem hexU_toNat_of_le {n : BitVec 4} (h : n.toNat ≤ 9) : (hexU n).toNat = 0x30 + n.toNat := by
  rw [hexU, if_pos h, BitVec.toNat_ofNat]; omega

theorem hexU_toNat_of_ge {n : BitVec 4} (h : 10 ≤ n.toNat) : (hexU n).toNat = 0x41 + (n.toNat - 10) := by
  rw [hexU, if_neg (by omega), BitVec.toNat_ofNat]; omega

/-- Settles O39: the two ranges of `hexU` are its two branches, and `hex2` is the digits of the two nibbles. -/
theorem hexDigitsAreUppercaseAscii : Obligations.HexDigitsAreUppercaseAscii :=
  ⟨fun _ => ⟨hexU_toNat_of_le, hexU_toNat_of_ge⟩, fun _ => rfl⟩

/-- No digit is a byte below `0x30`; STX and ETX are such bytes (`30_encoding.md` R66). -/
theorem hexU_ne_of_lt {b : Byte} (hb : b.toNat < 0x30) (d : BitVec 4) : hexU d ≠ b := by
  rintro rfl
  exact Nat.not_lt.2 (hexU_ge d) hb

theorem command_eq_hexU : command = hexU 1 := by decide

theorem exists_hexU_of_mem_hex2 {b v : Byte} (h : b ∈ hex2 v) : ∃ d, b = hexU d := by
  obtain rfl | rfl : b = hexU (highNibble v) ∨ b = hexU (lowNibble v) := by simpa [hex2] using h
  · exact ⟨_, rfl⟩
  · exact ⟨_, rfl⟩

theorem exists_hexU_of_mem_payloadField {b : Byte} {p : Bytes} (h : b ∈ payloadField p) : ∃ d, b = hexU d := by
  obtain ⟨v, -, hv⟩ := List.mem_flatMap.1 h
  exact exists_hexU_of_mem_hex2 hv

/-! ### The frame by index -/

/-- The bytes between STX and ETX: command, address, resolution and payload (`41_packet_framer.md` R91). -/
def bodyDigits (a : BitVec 4) (p : Bytes) : Bytes :=
  command :: hexU a :: (resolutionField p.length ++ payloadField p)

theorem encodePacket_eq_bodyDigits (a : BitVec 4) (p : Bytes) :
    encodePacket a p = stx :: (bodyDigits a p ++ etx :: hex2 (checksum (body a p))) := by
  simp [encodePacket, body, bodyDigits]

@[simp] theorem bodyDigits_length (a : BitVec 4) (p : Bytes) : (bodyDigits a p).length = 4 + 2 * p.length := by
  simp [bodyDigits]; omega

theorem exists_hexU_of_mem_bodyDigits {a : BitVec 4} {p : Bytes} {b : Byte} (h : b ∈ bodyDigits a p) :
    ∃ d, b = hexU d := by
  obtain rfl | rfl | h | h : b = command ∨ b = hexU a ∨ b ∈ resolutionField p.length ∨ b ∈ payloadField p := by
    simpa [bodyDigits] using h
  · exact ⟨1, command_eq_hexU⟩
  · exact ⟨a, rfl⟩
  · exact exists_hexU_of_mem_hex2 h
  · exact exists_hexU_of_mem_payloadField h

/-- What can stand at an index of a frame: STX at 0, ETX at `5 + 2N`, a hex digit everywhere else
(`30_encoding.md` R60, R66). -/
theorem encodePacket_getElem?_cases {a : BitVec 4} {p : Bytes} {i : Nat} {b : Byte}
    (h : (encodePacket a p)[i]? = some b) :
    (i = 0 ∧ b = stx) ∨ (i = 5 + 2 * p.length ∧ b = etx) ∨
      (i ≠ 0 ∧ i ≠ 5 + 2 * p.length ∧ ∃ d, b = hexU d) := by
  rw [encodePacket_eq_bodyDigits] at h
  cases i with
  | zero => exact .inl ⟨rfl, by simpa using h.symm⟩
  | succ i =>
    rw [List.getElem?_cons_succ] at h
    obtain hlt | rfl | hgt : i < (bodyDigits a p).length ∨ i = (bodyDigits a p).length ∨
        (bodyDigits a p).length < i := by omega
    · rw [List.getElem?_append_left hlt] at h
      rw [bodyDigits_length] at hlt
      exact .inr (.inr ⟨by omega, by omega, exists_hexU_of_mem_bodyDigits (List.mem_of_getElem? h)⟩)
    · exact .inr (.inl ⟨by simp; omega, by simpa using h.symm⟩)
    · obtain ⟨k, rfl⟩ := Nat.exists_eq_add_of_lt hgt
      rw [Nat.add_assoc, List.getElem?_append_right (Nat.le_add_right ..), Nat.add_sub_cancel_left,
        List.getElem?_cons_succ] at h
      rw [bodyDigits_length]
      exact .inr (.inr ⟨by omega, by omega, exists_hexU_of_mem_hex2 (List.mem_of_getElem? h)⟩)

/-- Settles O38: of STX, ETX and a hex digit (`encodePacket_getElem?_cases`) no two are equal, and a hex digit is at
least `0x30` (`hexU_ge`). -/
theorem delimitersOccurOnce : Obligations.DelimitersOccurOnce := by
  intro a p i b h
  obtain ⟨rfl, rfl⟩ | ⟨rfl, rfl⟩ | ⟨h0, hn, d, rfl⟩ := encodePacket_getElem?_cases h
  · exact ⟨by simp [stx], by simp [stx]; omega, fun hi => absurd rfl hi⟩
  · exact ⟨by simp [etx], by simp [etx], fun _ hi => absurd rfl hi⟩
  · exact ⟨iff_of_false (hexU_ne_of_lt (by decide) d) h0, iff_of_false (hexU_ne_of_lt (by decide) d) hn,
      fun _ _ => hexU_ge d⟩

/-- The body is indices `1 .. 5 + 2N` of the frame (`30_encoding.md` R60). -/
theorem encodePacket_take_body (a : BitVec 4) (p : Bytes) :
    ((encodePacket a p).drop 1).take (5 + 2 * p.length) = body a p := by
  rw [← body_length a p]
  exact List.take_left

/-- After the resolution field come the payload, ETX and the checksum. -/
theorem encodePacket_getElem?_five_add (a : BitVec 4) (p : Bytes) (i : Nat) :
    (encodePacket a p)[5 + i]? = (payloadField p ++ etx :: hex2 (checksum (body a p)))[i]? := by
  rw [← List.getElem?_drop, encodePacket_eq_bodyDigits]
  rfl

/-- Digit `j` of payload byte `i` stands at index `2i + j` of the payload field (`30_encoding.md` R65). -/
theorem payloadField_getElem? {p : Bytes} {i : Nat} {b : Byte} (h : p[i]? = some b) {j : Nat} (hj : j < 2) :
    (payloadField p)[2 * i + j]? = (hex2 b)[j]? := by
  induction p generalizing i with
  | nil => simp at h
  | cons v p ih =>
    rw [payloadField_cons]
    cases i with
    | zero =>
      obtain rfl : v = b := by simpa using h
      rw [Nat.mul_zero, Nat.zero_add, List.getElem?_append_left (by simpa using hj)]
    | succ i =>
      rw [List.getElem?_append_right (by simp; omega), ← ih (by simpa using h)]
      congr 1
      simp; omega

theorem encodePacket_payload_digit (a : BitVec 4) {p : Bytes} {i : Nat} {b : Byte} (h : p[i]? = some b) {j : Nat}
    (hj : j < 2) : (encodePacket a p)[5 + (2 * i + j)]? = (hex2 b)[j]? := by
  obtain ⟨hi, -⟩ := List.getElem?_eq_some_iff.1 h
  rw [encodePacket_getElem?_five_add, List.getElem?_append_left (by simp; omega), payloadField_getElem? h hj]

/-- ETX and the two checksum digits end the frame. -/
theorem encodePacket_getElem?_trailer (a : BitVec 4) (p : Bytes) (j : Nat) :
    (encodePacket a p)[5 + (2 * p.length + j)]? = (etx :: hex2 (checksum (body a p)))[j]? := by
  rw [encodePacket_getElem?_five_add, List.getElem?_append_right (by simp)]
  simp

theorem encodePacket_alphabet {a : BitVec 4} {p : Bytes} {b : Byte} (h : b ∈ encodePacket a p) :
    b = stx ∨ b = etx ∨ ∃ d, b = hexU d := by
  obtain ⟨i, hi⟩ := List.mem_iff_getElem?.1 h
  obtain ⟨-, hb⟩ | ⟨-, hb⟩ | ⟨-, -, hb⟩ := encodePacket_getElem?_cases hi
  · exact .inl hb
  · exact .inr (.inl hb)
  · exact .inr (.inr hb)

/-- Settles O37: the first five bytes are read off the definition, the payload digits and the trailer stand
after it (`encodePacket_payload_digit`, `encodePacket_getElem?_trailer`), and the checksummed indices are the body
(`encodePacket_take_body`). -/
theorem frameLayout : Obligations.FrameLayout := by
  intro a p
  dsimp only
  rw [encodePacket_take_body]
  refine ⟨encodePacket_length a p, rfl, rfl, rfl, rfl, rfl, fun i b h => ⟨?_, ?_⟩, ?_, ?_, ?_,
    fun b => encodePacket_alphabet⟩
  · exact encodePacket_payload_digit a h Nat.zero_lt_two
  · rw [← encodePacket_payload_digit a h Nat.one_lt_two]; congr 1; omega
  · exact encodePacket_getElem?_trailer a p 0
  · rw [show 6 + 2 * p.length = 5 + (2 * p.length + 1) by omega, encodePacket_getElem?_trailer]; rfl
  · rw [show 7 + 2 * p.length = 5 + (2 * p.length + 2) by omega, encodePacket_getElem?_trailer]; rfl

/-! ### The codes of the host port -/

theorem decodeSignals_configure {p : PortSignals} (h : p.op = 0b00#2) :
    decodeSignals p = .configure p.addr p.h p.w p.baud p.margin := by simp [decodeSignals, h]

theorem decodeSignals_setpix {p : PortSignals} (h : p.op = 0b01#2) :
    decodeSignals p = .setpix p.row p.col p.v := by simp [decodeSignals, h]

theorem decodeSignals_getpix {p : PortSignals} (h : p.op = 0b10#2) :
    decodeSignals p = .getpix p.row p.col := by simp [decodeSignals, h]

theorem decodeSignals_send {p : PortSignals} (h : p.op = 0b11#2) : decodeSignals p = .send := by
  simp [decodeSignals, h]

/-- Settles O43: one equation of the decoder per operation code, and one response code per response. -/
theorem operationCodesSelectOperations : Obligations.OperationCodesSelectOperations := by
  intro p
  refine ⟨fun h => decodeSignals_configure (BitVec.eq_of_toNat_eq h),
    fun h => decodeSignals_setpix (BitVec.eq_of_toNat_eq h),
    fun h => decodeSignals_getpix (BitVec.eq_of_toNat_eq h),
    fun h => decodeSignals_send (BitVec.eq_of_toNat_eq h), Nat.le_of_lt_succ p.op.isLt, fun s => ⟨rfl, ?_⟩⟩
  show s.resp.code = _
  cases s.resp <;> rfl

end Sys2Proof.Machine
end

section
/-! PROOFS. The sequencer's and the clock's steps, one equation each (`42_transmission_scheduler.md` R111 to R114). -/

namespace Sys2Proof.Machine

theorem sequencerTurn_idle {s : State} (hm : s.mode = .idle) :
    sequencerTurn s = if startEnabled s then .next (start s) else .next s := by rw [sequencerTurn, hm]

theorem sequencerTurn_tx {s : State} (hm : s.mode = .tx) : sequencerTurn s = txByte s := by rw [sequencerTurn, hm]

theorem sequencerTurn_flush {s : State} (hm : s.mode = .flush) : sequencerTurn s = txFlush s := by
  rw [sequencerTurn, hm]

theorem txByte_ok {s : State} {b : Byte} {rest : List Answer} (hb : s.pkt[s.txi]? = some b)
    (ha : s.answers = .ok :: rest) : txByte s = .next (byteAccepted b { s with answers := rest }) := by
  rw [txByte, ha, hb]

theorem txByte_err {s : State} {b : Byte} {rest : List Answer} (hb : s.pkt[s.txi]? = some b)
    (ha : s.answers = .err :: rest) : txByte s = .next (byteFailed b { s with answers := rest }) := by
  rw [txByte, ha, hb]

theorem txByte_packetIndex {s : State} {a : Answer} {rest : List Answer} (hb : s.pkt[s.txi]? = none)
    (ha : s.answers = a :: rest) : txByte s = .fault .packetIndex := by rw [txByte, ha, hb]

theorem txFlush_ok {s : State} {rest : List Answer} (ha : s.answers = .ok :: rest) :
    txFlush s = .next (flushAccepted { s with answers := rest }) := by rw [txFlush, ha]

theorem txFlush_err {s : State} {rest : List Answer} (ha : s.answers = .err :: rest) :
    txFlush s = .next (flushFailed { s with answers := rest }) := by rw [txFlush, ha]

/-- Settles O14: in `IDLE` the sequencer's turn is START when START is enabled (`startEnabled_iff`), and a wait when it
is not. -/
theorem startLatchesPacket : Obligations.StartLatchesPacket := by
  intro s hm
  rw [agentStep, sequencerTurn_idle hm]
  refine ⟨fun hp ht => ?_, fun h => ?_⟩
  · rw [if_pos (startEnabled_iff.2 ⟨hp, hm, ht⟩)]; rfl
  · refine if_neg fun he => ?_
    obtain ⟨hp, -, ht⟩ := startEnabled_iff.1 he
    rcases h with h | h
    · simp [h] at hp
    · exact h ht

/-- Settles O15: in `TX` the sequencer's turn is TXBYTE, and the channel's answer selects `byteAccepted` or
`byteFailed`. -/
theorem txbyteWritesNextByte : Obligations.TxbyteWritesNextByte := by
  intro b s hm hb
  rw [agentStep, sequencerTurn_tx hm]
  refine ⟨fun rest ha => ?_, fun rest ha => txByte_err hb ha⟩
  rw [txByte_ok hb ha, byteAccepted, hm]
  rfl

/-- Settles O16: in `FLUSH` the sequencer's turn is TXFLUSH, and the channel's answer selects `flushAccepted` or
`flushFailed`. -/
theorem txflushEndsPacket : Obligations.TxflushEndsPacket := by
  intro s hm
  rw [agentStep, sequencerTurn_flush hm]
  exact ⟨fun _ => txFlush_ok, fun _ => txFlush_err⟩

theorem agentStep_clock (s : State) : agentStep .clock s = .next (tick s) := rfl

/-- Settles O19: the clock's turn is TICK, whose subtraction on naturals saturates at 0. -/
theorem tickCountsDown : Obligations.TickCountsDown := by
  intro s
  rw [agentStep_clock, Nat.zero_max]
  refine ⟨rfl, fun n hn t ht => ?_, fun h0 t ht => ?_⟩
  · obtain rfl := Host.Outcome.next.inj ht
    rw [tick_timer, hn, Nat.add_sub_cancel]
  · obtain rfl := Host.Outcome.next.inj ht
    rw [tick_timer, h0]

end Sys2Proof.Machine
end

section
/-! PROOFS. `MODE` moves only by the transition table (`42_transmission_scheduler.md` R123): each step is read against the
rows (`stepCase_mode`), and each row whose event happens is followed (`mode_of_modeTable`). -/

namespace Sys2Proof.Machine

/-- The code that `ERR` takes when `FAULT` is entered from mode `m` (`42_transmission_scheduler.md` R123): a
ConfigurationError comes from `UNCONF`, a ChannelError from `TX` or `FLUSH`. -/
def faultCodeFrom (m : Mode) : ErrCode := if m = .unconf then .configuration else .channel

/-- A step that is not on a row of the table leaves `MODE` as it is; one that enters `FAULT` records its row's code. -/
theorem stepCase_mode {s t : State} (h : StepCase s t) :
    t.mode = s.mode ∨ ModeTable s t.mode ∧ (t.mode = .fault → t.err = faultCodeFrom s.mode) := by
  cases h with
  | reset ht => exact .inr ⟨.reset ht, nofun⟩
  | configured _ _ _ _ _ _ hop _ _ hm ha hh hw hb =>
    have hlegal := legalConfiguration_eq_true.2 ⟨ha, hh, hw, hb⟩
    exact .inr ⟨.configured hm hop fun hbad => by simp [legalConfiguration_eq_false.2 hbad] at hlegal, nofun⟩
  | misconfigured _ _ _ _ _ _ hop _ _ hm hbad =>
    exact .inr ⟨.misconfigured hm hop hbad, fun _ => by rw [hm]; rfl⟩
  | start ht hm hp h0 => exact .inr ⟨.started ⟨ht, hm, hp, h0⟩, nofun⟩
  | byteAccepted b rest ht hm _ ha =>
    have htr : transaction .tx .ok s := ⟨ht, hm, by rw [ha]; rfl⟩
    rw [byteAccepted_mode, answered_txi, packetLength_answered, answered_mode]
    by_cases hl : s.txi + 1 = packetLength s
    · rw [hl, modeAfterByte_last]
      exact .inr ⟨.lastByteWritten htr hl, nofun⟩
    · exact .inl (modeAfterByte_other hl _)
  | byteFailed b rest ht hm _ ha =>
    exact .inr ⟨.writeFailed ⟨ht, hm, by rw [ha]; rfl⟩, fun _ => by rw [hm]; rfl⟩
  | flushAccepted rest ht hm ha => exact .inr ⟨.flushed ⟨ht, hm, by rw [ha]; rfl⟩, nofun⟩
  | flushFailed rest ht hm ha => exact .inr ⟨.flushFailed ⟨ht, hm, by rw [ha]; rfl⟩, fun _ => by rw [hm]; rfl⟩
  | _ => exact .inl rfl

/-- Only the clock moves without being listed (log 3). -/
theorem turns_of_turn {s : State} {a : Turn} (h : turn s = a) (ha : a ≠ .clock) : ∃ ts, s.turns = a :: ts := by
  cases hts : s.turns with
  | nil => exact absurd (h.symm.trans (turn_of_nil hts)) ha
  | cons a' ts => exact ⟨ts, by rw [← h, turn_of_cons hts]⟩

theorem step_of_operationTaken {s : State} {i : Instr} (h : operationTaken s = some i) :
    ∃ ps, step s = .next (hostEffect i (accepting ps s)) := by
  obtain ⟨ht, hb, p, ps, ho, rfl⟩ := operationTaken_eq_some.1 h
  obtain ⟨ts, hts⟩ := turns_of_turn ht nofun
  exact ⟨ps, step_accepted hts ho hb⟩

theorem step_of_starts {s : State} (h : starts s) : step s = .next (start (turnTaken s)) := by
  obtain ⟨ht, hm, hp, h0⟩ := h
  obtain ⟨ts, hts⟩ := turns_of_turn ht nofun
  rw [step_sequencer hts, sequencerTurn_idle (s := turnTaken s) hm]
  exact if_pos (startEnabled_iff.2 ⟨hp, hm, h0⟩)

theorem transaction_cons {m : Mode} {a : Answer} {s : State} (h : transaction m a s) :
    s.mode = m ∧ (∃ ts, s.turns = .sequencer :: ts) ∧ ∃ rest, s.answers = a :: rest := by
  obtain ⟨ht, hm, ha⟩ := h
  exact ⟨hm, turns_of_turn ht nofun, List.head?_eq_some_iff.1 ha⟩

/-- TXBYTE that does not stop with `packetIndex` has a byte to write (log 13). -/
theorem byte_of_transaction_tx {a : Answer} {s t : State} (h : transaction .tx a s) (hs : step s = .next t) :
    ∃ b, s.pkt[s.txi]? = some b := by
  obtain ⟨hm, ⟨ts, hts⟩, rest, ha⟩ := transaction_cons h
  cases hb : s.pkt[s.txi]? with
  | some b => exact ⟨b, rfl⟩
  | none =>
    have hstop : step s = .fault .packetIndex := by
      rw [step_sequencer hts, sequencerTurn_tx (s := turnTaken s) hm]
      exact txByte_packetIndex hb ha
    rw [hstop] at hs
    cases hs

theorem mode_of_byteWritten {s t : State} (h : transaction .tx .ok s) (hs : step s = .next t) :
    t.mode = modeAfterByte (s.txi + 1) (packetLength s) .tx := by
  obtain ⟨b, hb⟩ := byte_of_transaction_tx h hs
  obtain ⟨hm, ⟨ts, hts⟩, rest, ha⟩ := transaction_cons h
  obtain rfl := Host.Outcome.next.inj ((step_byteAccepted hts hm hb ha).symm.trans hs)
  rw [byteAccepted_mode, answered_mode, hm]
  rfl

theorem mode_of_writeFailed {s t : State} (h : transaction .tx .err s) (hs : step s = .next t) : t.mode = .fault := by
  obtain ⟨b, hb⟩ := byte_of_transaction_tx h hs
  obtain ⟨hm, ⟨ts, hts⟩, rest, ha⟩ := transaction_cons h
  obtain rfl := Host.Outcome.next.inj ((step_byteFailed hts hm hb ha).symm.trans hs)
  rfl

/-- The table is a function: the step follows the row whose event happens. -/
theorem mode_of_modeTable {s t : State} {m : Mode} (h : ModeTable s m) (hs : step s = .next t) : t.mode = m := by
  cases h with
  | reset ht =>
    obtain ⟨ts, hts⟩ := turns_of_turn ht nofun
    obtain rfl := Host.Outcome.next.inj ((step_reset hts).symm.trans hs)
    rfl
  | @configured addr h w baud margin hm hop hlegal =>
    obtain ⟨ps, hps⟩ := step_of_operationTaken hop
    obtain rfl := Host.Outcome.next.inj (hps.symm.trans hs)
    rcases configureEffect_cases addr h w baud margin (accepting ps s) with ⟨hm', -⟩ | ⟨-, -, he⟩ | ⟨-, hbad, -⟩
    · exact absurd hm hm'
    · rw [hostEffect, he]; rfl
    · exact absurd (legalConfiguration_eq_false.1 hbad) hlegal
  | @misconfigured addr h w baud margin hm hop hbad =>
    obtain ⟨ps, hps⟩ := step_of_operationTaken hop
    obtain rfl := Host.Outcome.next.inj (hps.symm.trans hs)
    rcases configureEffect_cases addr h w baud margin (accepting ps s) with ⟨hm', -⟩ | ⟨-, hlegal, -⟩ | ⟨-, -, he⟩
    · exact absurd hm hm'
    · simp [legalConfiguration_eq_false.2 hbad] at hlegal
    · rw [hostEffect, he]; rfl
  | started hst =>
    obtain rfl := Host.Outcome.next.inj ((step_of_starts hst).symm.trans hs)
    rfl
  | byteWritten htr hl => exact (mode_of_byteWritten htr hs).trans (modeAfterByte_other hl _)
  | lastByteWritten htr hl => rw [mode_of_byteWritten htr hs, hl, modeAfterByte_last]
  | writeFailed htr => exact mode_of_writeFailed htr hs
  | flushed htr =>
    obtain ⟨hm, ⟨ts, hts⟩, rest, ha⟩ := transaction_cons htr
    obtain rfl := Host.Outcome.next.inj ((step_flushAccepted hts hm ha).symm.trans hs)
    rfl
  | flushFailed htr =>
    obtain ⟨hm, ⟨ts, hts⟩, rest, ha⟩ := transaction_cons htr
    obtain rfl := Host.Outcome.next.inj ((step_flushFailed hts hm ha).symm.trans hs)
    rfl

/-- RESET is the one row of the table in `FAULT` (`60_exceptions.md` R188). -/
theorem modeTable_of_fault {s : State} {m : Mode} (h : ModeTable s m) (hf : s.mode = .fault) : turn s = .reset := by
  have hne : ∀ {m'}, s.mode = m' → m' = .fault := fun h => h.symm.trans hf
  cases h with
  | reset ht => exact ht
  | configured hm => cases hne hm
  | misconfigured hm => cases hne hm
  | started hst => obtain ⟨-, hm, -⟩ := hst; cases hne hm
  | byteWritten htr | lastByteWritten htr | writeFailed htr | flushed htr | flushFailed htr =>
    obtain ⟨-, hm, -⟩ := htr; cases hne hm

theorem err_of_fault_entered {s t : State} (h : StepCase s t) (hs : s.mode ≠ .fault) (ht : t.mode = .fault) :
    t.err = faultCodeFrom s.mode := by
  obtain hsame | ⟨-, hcode⟩ := stepCase_mode h
  · exact absurd (hsame.symm.trans ht) hs
  · exact hcode ht

/-- Settles O20: every step is on a row or leaves `MODE` unchanged (`stepCase_mode`), a row whose event happens is followed
(`mode_of_modeTable`), and RESET is the only row in `FAULT` (`modeTable_of_fault`). -/
theorem modeFollowsTransitionTable : Obligations.ModeFollowsTransitionTable := by
  intro s t hs
  have hcase := step_cases hs
  have hrow : t.mode = s.mode ∨ ModeTable s t.mode := (stepCase_mode hcase).imp_right And.left
  refine ⟨hrow, fun m h => mode_of_modeTable h hs, fun hm ht => ?_, fun hm ht => ?_, fun hm => ?_⟩
  · rw [err_of_fault_entered hcase (by simp [hm]) ht, hm]; rfl
  · have hne : s.mode ≠ .fault ∧ s.mode ≠ .unconf := by rcases hm with hm | hm <;> simp [hm]
    exact (err_of_fault_entered hcase hne.1 ht).trans (if_neg hne.2)
  · exact hrow.imp (·.trans hm) (modeTable_of_fault · hm)

end Sys2Proof.Machine
end

section
/-! PROOFS. `INTERVAL_TICKS` (`42_transmission_scheduler.md` R110): a ceiling, positive when configured, and constant from
CONFIGURE to reset. -/

namespace Sys2Proof.Machine

/-- `ceilDiv` is Mathlib's ceiling division. -/
theorem ceilDiv_le_iff {a b n : Nat} (hb : 0 < b) : ceilDiv a b ≤ n ↔ a ≤ b * n := ceilDiv_le_iff_le_mul hb

/-- A whole number of ticks can be drawn into the ceiling. -/
theorem intervalOf_eq_ceilDiv (hz l : Nat) {baud : Nat} (margin : Nat) (hb : 0 < baud) :
    intervalOf hz l baud margin = ceilDiv (10 * l * hz + baud * margin) baud := by
  have hcomm : 10 * l * hz + baud * margin + baud - 1 = 10 * l * hz + baud - 1 + baud * margin := by omega
  rw [ceilDiv, hcomm, Nat.add_mul_div_left _ _ hb]
  rfl

theorem intervalOf_le_iff {hz l baud margin n : Nat} (hb : 0 < baud) :
    intervalOf hz l baud margin ≤ n ↔ 10 * l * hz + baud * margin ≤ baud * n := by
  rw [intervalOf_eq_ceilDiv hz l margin hb, ceilDiv_le_iff hb]

theorem packetBits_mul_tickHz_pos (s : State) : 0 < packetBits (packetLength s) * Config.tickHz := by
  have hl := packetLength_ge s
  exact Nat.mul_pos (by unfold packetBits; omega) (Nat.succ_pos _)

/-- No whole number of ticks below 1 is long enough for a packet (`42_transmission_scheduler.md` R110). -/
theorem intervalTicks_pos {s : State} (h : configured s) : 1 ≤ intervalTicks s := by
  obtain ⟨-, -, hbaud⟩ := h
  have hb : 0 < s.baud.toNat := Nat.pos_of_ne_zero (BitVec.toNat_ne_iff_ne.2 hbaud)
  refine Nat.one_le_iff_ne_zero.2 fun h0 => ?_
  have hbits := (intervalOf_le_iff hb).1 (Nat.le_of_eq h0)
  have hpos := packetBits_mul_tickHz_pos s
  rw [packetBits] at hpos
  omega

/-- The configuration is written by CONFIGURE in `UNCONF` and by RESET alone (`10_state.md` R12). -/
theorem stepCase_keeps_configuration {s t : State} (h : StepCase s t) (hm : s.mode ≠ .unconf) (hr : turn s ≠ .reset) :
    t.addr = s.addr ∧ t.h = s.h ∧ t.w = s.w ∧ t.baud = s.baud ∧ t.margin = s.margin := by
  cases h with
  | reset ht => exact absurd ht hr
  | configured _ _ _ _ _ _ _ _ _ hu => exact absurd hu hm
  | _ => exact ⟨rfl, rfl, rfl, rfl, rfl⟩

/-- Settles O45: the formula is the definition; that it is the least sufficient number of ticks is `intervalOf_le_iff`
read in both directions; that it is constant follows from the configuration's frame
(`stepCase_keeps_configuration`). -/
theorem intervalIsLeastWholeNumberOfTicks : Obligations.IntervalIsLeastWholeNumberOfTicks := by
  refine ⟨fun s => rfl, fun hz l baud margin hb => ⟨?_, fun n => (intervalOf_le_iff hb).2⟩,
    fun _ => intervalTicks_pos, fun s t hm hr hs => ?_⟩
  · exact (intervalOf_le_iff hb).1 le_rfl
  · obtain ⟨-, hh, hw, hbaud, hmargin⟩ := stepCase_keeps_configuration (step_cases hs) hm hr
    exact intervalTicks_congr hh hw hbaud hmargin

end Sys2Proof.Machine
end

section
/-! PROOFS. The host operations at a free port (`43_host_operations.md` R141 to R145): what each writes when it is performed,
and that it is refused exactly in the listed cases. -/

namespace Sys2Proof.Machine

/-- At a free port a host operation answers a state exactly when that state is its effect. -/
theorem exec_host_free_eq_next {i : Instr} (hi : i.port = .host) {s t : State} (hs : portBusy s = false) :
    exec i s = .next t ↔ hostEffect i s = t := by
  rw [exec_host_free hi hs, Host.Outcome.next.injEq]

theorem inRange_eq_false {s : State} {row col : BitVec 16} :
    inRange s row col = false ↔ s.h.toNat ≤ row.toNat ∨ s.w.toNat ≤ col.toNat := by
  rw [← Bool.not_eq_true, inRange_eq_true, not_and_or, Nat.not_lt, Nat.not_lt]

/-! ### Refusals

An effect that is no refusal shows it in a field: `RESP`, or the outstanding SEND. -/

theorem ne_refuse_of_resp {s t : State} (h : t.resp ≠ .refused) : t ≠ refuse s := by
  rintro rfl
  exact h rfl

theorem ne_refuseData_of_resp {s t : State} (h : t.resp ≠ .refused) : t ≠ refuseData s := ne_refuse_of_resp h

theorem exec_configure_eq_refuse_iff (addr : BitVec 8) (h w : BitVec 16) (baud margin : BitVec 32) {s : State}
    (hs : portBusy s = false) :
    exec (.configure addr h w baud margin) s = .next (refuse s) ↔ s.mode ≠ .unconf := by
  rw [exec_host_free_eq_next rfl hs, hostEffect]
  rcases configureEffect_cases addr h w baud margin s with ⟨hm, he⟩ | ⟨hm, -, he⟩ | ⟨hm, -, he⟩
  · exact iff_of_true he hm
  · rw [he]; exact iff_of_false (ne_refuse_of_resp (by simp)) (not_not.2 hm)
  · rw [he]; exact iff_of_false (ne_refuse_of_resp (by simp)) (not_not.2 hm)

theorem exec_setpix_eq_refuse_iff (row col : BitVec 16) (v : Bool) {s : State} (hs : portBusy s = false) :
    exec (.setpix row col v) s = .next (refuse s) ↔
      s.mode ≠ .idle ∨ s.h.toNat ≤ row.toNat ∨ s.w.toNat ≤ col.toNat := by
  rw [exec_host_free_eq_next rfl hs, hostEffect, ← inRange_eq_false]
  rcases setpixEffect_cases row col v s with ⟨hbad, he⟩ | ⟨hm, hr, he⟩
  · exact iff_of_true he hbad
  · rw [he]; exact iff_of_false (ne_refuse_of_resp (by simp)) (by simp [hm, hr])

theorem exec_getpix_eq_refuseData_iff (row col : BitVec 16) {s : State} (hs : portBusy s = false) :
    exec (.getpix row col) s = .next (refuseData s) ↔
      s.mode ≠ .idle ∨ s.h.toNat ≤ row.toNat ∨ s.w.toNat ≤ col.toNat := by
  rw [exec_host_free_eq_next rfl hs, hostEffect, ← inRange_eq_false]
  rcases getpixEffect_cases row col s with ⟨hbad, he⟩ | ⟨hm, hr, he⟩
  · exact iff_of_true he hbad
  · rw [he]; exact iff_of_false (ne_refuseData_of_resp (by simp)) (by simp [hm, hr])

/-- In `IDLE` the SEND becomes outstanding, which no refusal does; `RESP` keeps its old value, perhaps `REFUSED`. -/
theorem exec_send_eq_refuse_iff {s : State} (hs : portBusy s = false) :
    exec .send s = .next (refuse s) ↔ s.mode = .unconf ∨ s.mode = .fault := by
  rw [exec_host_free_eq_next rfl hs, hostEffect]
  rcases sendEffect_cases s hs with ⟨hm, he⟩ | ⟨hm, he⟩
  · exact iff_of_true he hm
  · obtain ⟨hfree, -, -⟩ := portBusy_eq_false.1 hs
    rw [he]
    refine iff_of_false (fun heq => ?_) (by simp [hm])
    have hsend : true = s.sendPending := congrArg State.sendPending heq
    simp [hfree] at hsend

/-! ### Operations performed -/

/-- `addr[3:0]` is the whole of a legal address. -/
theorem addressField_toNat {addr : BitVec 8} (h : addr.toNat ≤ 15) : (addressField addr).toNat = addr.toNat := by
  rw [addressField, BitVec.toNat_setWidth]; omega

/-- With no SEND outstanding there is none for an error to answer. -/
theorem raiseError_of_not_sendPending (code : ErrCode) {s : State} (h : s.sendPending = false) :
    raiseError code s = { s with mode := .fault, err := code, resp := code.response } := by
  rw [raiseError, ← h]; rfl

theorem exec_configure_legal {addr : BitVec 8} {h w : BitVec 16} {baud : BitVec 32} (margin : BitVec 32) {s : State}
    (hs : portBusy s = false) (hm : s.mode = .unconf) (hl : legalConfiguration addr h w baud = true) :
    exec (.configure addr h w baud margin) s = .next (respond .ok
      { s with addr := addressField addr, h := h, w := w, baud := baud, margin := margin, fb := [],
               mode := .idle }) := by
  rw [exec_host_free_eq_next rfl hs, hostEffect, configureEffect, if_neg (not_not.2 hm), if_pos hl]

theorem exec_configure_illegal {addr : BitVec 8} {h w : BitVec 16} {baud : BitVec 32} (margin : BitVec 32) {s : State}
    (hs : portBusy s = false) (hm : s.mode = .unconf) (hl : legalConfiguration addr h w baud = false) :
    exec (.configure addr h w baud margin) s = .next (raiseConfigurationError s) := by
  rw [exec_host_free_eq_next rfl hs, hostEffect, configureEffect, if_neg (not_not.2 hm),
    if_neg (by simp [hl])]

theorem exec_setpix_inRange {row col : BitVec 16} (v : Bool) {s : State} (hs : portBusy s = false)
    (hm : s.mode = .idle) (hr : inRange s row col = true) :
    exec (.setpix row col v) s = .next (respond .ok (writeCell s row.toNat col.toNat v)) := by
  rw [exec_host_free_eq_next rfl hs, hostEffect, setpixEffect, if_neg (not_not.2 hm), if_pos hr]

theorem exec_getpix_inRange {row col : BitVec 16} {s : State} (hs : portBusy s = false)
    (hm : s.mode = .idle) (hr : inRange s row col = true) :
    exec (.getpix row col) s = .next (respondData .ok (readCell s row.toNat col.toNat) s) := by
  rw [exec_host_free_eq_next rfl hs, hostEffect, getpixEffect, if_neg (not_not.2 hm), if_pos hr]

@[simp] theorem readCell_respond (code : Resp) (s : State) (r c : Nat) :
    readCell (respond code s) r c = readCell s r c := rfl

theorem readCell_writeCell_same {s : State} (hwf : Memory.wf s.fb) (r c : Nat) (v : Bool) :
    readCell (writeCell s r c v) r c = v := by
  rw [readCell, writeCell_fb, read_write _ _ _ hwf, if_pos rfl]

/-- Two cells whose columns are 16-bit values have two keys (`cellKey_injective`). -/
theorem readCell_writeCell_other {s : State} (hwf : Memory.wf s.fb) {r c r' c' : Nat} (v : Bool) (hc : c < 65536)
    (hc' : c' < 65536) (hne : (r', c') ≠ (r, c)) : readCell (writeCell s r c v) r' c' = readCell s r' c' := by
  rw [readCell, writeCell_fb, read_write _ _ _ hwf]
  refine if_neg fun hk => hne ?_
  obtain ⟨rfl, rfl⟩ := cellKey_injective hc hc' hk
  rfl

end Sys2Proof.Machine

/-! The obligations, in a namespace of their own: the model has functions `configureEffect`, `setpixEffect` and
`getpixEffect`. -/

namespace Sys2Proof.HostOperations
open Sys2Proof.Machine

/-- Settles O6: one case per branch of CONFIGURE; at a free port no SEND is outstanding, so the error changes nothing
else. -/
theorem configureEffect : Obligations.ConfigureEffect := by
  intro addr h w baud margin s hs
  refine ⟨(exec_configure_eq_refuse_iff addr h w baud margin hs).2, fun hm hbad => ?_, fun hm ha hh hw hb => ?_⟩
  · obtain ⟨hfree, -, -⟩ := portBusy_eq_false.1 hs
    rw [exec_configure_illegal margin hs hm (legalConfiguration_eq_false.2 hbad), raiseConfigurationError,
      raiseError_of_not_sendPending _ hfree]
    rfl
  · exact ⟨_, exec_configure_legal margin hs hm (legalConfiguration_eq_true.2 ⟨ha, hh, hw, hb⟩), rfl,
      addressField_toNat ha, wf_nil, fun r c => rfl⟩

/-- Settles O7: the cell written and every other cell are the two laws of a read after a write, and the idempotence is
that of the canonical frame buffer (`write_same_value`). -/
theorem setpixEffect : Obligations.SetpixEffect := by
  intro row col v s hs
  refine ⟨(exec_setpix_eq_refuse_iff row col v hs).2, fun hm hrow hcol hwf => ?_⟩
  refine ⟨_, exec_setpix_inRange v hs hm (inRange_eq_true.2 ⟨hrow, hcol⟩), rfl, write_wf _ v hwf, ?_,
    fun r c hc hne => ?_, write_same_value hwf⟩
  · rw [readCell_respond, readCell_writeCell_same hwf]
  · rw [readCell_respond, readCell_writeCell_other hwf v col.isLt hc hne]

/-- Settles O11: one equivalence per operation; an operation that is performed answers `OK` or an error, or leaves a SEND
outstanding. -/
theorem refusedExactlyInListedCases : Obligations.RefusedExactlyInListedCases := fun _ hs =>
  ⟨fun addr h w baud margin => exec_configure_eq_refuse_iff addr h w baud margin hs,
    fun row col v => exec_setpix_eq_refuse_iff row col v hs,
    fun row col => exec_getpix_eq_refuseData_iff row col hs, exec_send_eq_refuse_iff hs⟩

/-- Settles O8: the two branches of GETPIX, refused and performed. -/
theorem getpixEffect : Obligations.GetpixEffect := fun row col _ hs =>
  ⟨(exec_getpix_eq_refuseData_iff row col hs).2,
    fun hm hrow hcol => exec_getpix_inRange hs hm (inRange_eq_true.2 ⟨hrow, hcol⟩)⟩

end Sys2Proof.HostOperations
end

section
/-! PROOFS. The host software's pure functions: the frames of a roll (`44_host_software.md` R163) and the collapsing of runs
(R165). -/

namespace Sys2Proof.Machine

/-! ### The roll -/

section Roll
variable {α : Type} {old new : List α} {s r : Nat}

@[simp] theorem rollTransition_length (old new : List α) : (rollTransition old new).length = new.length := by
  simp [rollTransition]

/-- The frame of shift `s` stands at index `s - 1`. -/
theorem rollTransition_getElem?_pred (old : List α) (h1 : 1 ≤ s) (hs : s ≤ new.length) :
    (rollTransition old new)[s - 1]? = some (rollFrame old new s) := by
  have hlt : s - 1 < new.length := by omega
  simp [rollTransition, List.getElem?_range hlt, Nat.sub_add_cancel h1]

theorem rollFrame_length (hlen : old.length = new.length) (hs : s ≤ new.length) :
    (rollFrame old new s).length = new.length := by
  simp only [rollFrame, List.length_append, List.length_take]
  omega

theorem rollFrame_getElem?_of_lt (old : List α) (hs : s ≤ new.length) (hr : r < s) :
    (rollFrame old new s)[r]? = new[r]? := by
  have hleft : r < (new.take s).length := by rw [List.length_take_of_le hs]; exact hr
  rw [rollFrame, List.getElem?_append_left hleft, List.getElem?_take_of_lt hr]

theorem rollFrame_getElem?_of_ge (old : List α) (hr : s ≤ r) (hlt : r < new.length) :
    (rollFrame old new s)[r]? = old[r - s]? := by
  have hlen : (new.take s).length = s := List.length_take_of_le (by omega)
  rw [rollFrame, List.getElem?_append_right (by omega), hlen, List.getElem?_take_of_lt (by omega)]

/-- No row of the old content is left in the terminal frame. -/
@[simp] theorem rollFrame_full (old new : List α) : rollFrame old new new.length = new := by
  simp [rollFrame]

end Roll

/-! ### The collapsing of runs -/

section Dedupe
variable {α : Type} [DecidableEq α]

theorem dedupe_cons_cons (x y : α) (t : List α) :
    dedupe (x :: y :: t) = if x = y then dedupe (y :: t) else x :: dedupe (y :: t) := rfl

/-- `dedupe` keeps the last element of a run and the library's `destutter` the first; the elements of a run are equal. -/
theorem dedupe_eq_destutter (l : List α) : dedupe l = l.destutter (· ≠ ·) := by
  induction l using dedupe.induct with
  | case1 => rfl
  | case2 x => rfl
  | case3 y t ih =>
    rw [dedupe_cons_cons, if_pos rfl, ih, List.destutter_cons_cons, if_neg (not_not.2 rfl), List.destutter_cons']
  | case4 x y t hne ih =>
    rw [dedupe_cons_cons, if_neg hne, ih, List.destutter_cons_cons, if_pos hne, List.destutter_cons']

/-- An element that is dropped equals its right neighbour. -/
@[simp] theorem mem_dedupe {e : α} {l : List α} : e ∈ dedupe l ↔ e ∈ l := by
  induction l using dedupe.induct with
  | case1 => rfl
  | case2 x => rfl
  | case3 y t ih => simp [dedupe_cons_cons, ih]
  | case4 x y t hne ih => simp [dedupe_cons_cons, hne, ih]

theorem dedupe_sublist (l : List α) : List.Sublist (dedupe l) l := by
  rw [dedupe_eq_destutter]
  exact l.destutter_sublist _

theorem dedupe_isChain_ne (l : List α) : (dedupe l).IsChain (· ≠ ·) := by
  rw [dedupe_eq_destutter]
  exact l.isChain_destutter _

theorem dedupe_dedupe (l : List α) : dedupe (dedupe l) = dedupe l := by
  rw [dedupe_eq_destutter (dedupe l)]
  exact List.destutter_of_isChain _ _ (dedupe_isChain_ne l)

theorem dedupe_eq_nil_iff {l : List α} : dedupe l = [] ↔ l = [] := by
  rw [dedupe_eq_destutter]
  exact List.destutter_eq_nil _

theorem length_le_length_dedupe {y l : List α} (hsub : List.Sublist y l) (hchain : y.IsChain (· ≠ ·)) :
    y.length ≤ (dedupe l).length := by
  rw [dedupe_eq_destutter]
  exact hchain.length_le_length_destutter_ne hsub

end Dedupe

/-- Settles O47: the frame at index `s - 1` is `rollFrame old new s`, whose rows are read off its two parts. -/
theorem rollUncoversNewFrame : Obligations.RollUncoversNewFrame := by
  intro old new hlen
  refine ⟨rollTransition_length old new, fun s h1 hs => ⟨_, rollTransition_getElem?_pred old h1 hs,
    rollFrame_length hlen hs, fun r => rollFrame_getElem?_of_lt old hs, fun r => rollFrame_getElem?_of_ge old, ?_⟩⟩
  rintro rfl
  exact rollFrame_full old new

/-- Settles O49: `dedupe` is the library's `destutter` of `≠`, whose result is the longest chain in its input. -/
theorem dedupeCollapsesRuns : Obligations.DedupeCollapsesRuns := fun x =>
  ⟨dedupe_dedupe x, (dedupe_sublist x).length_le, dedupe_isChain_ne x, dedupe_eq_nil_iff.not, dedupe_sublist x,
    fun _ => length_le_length_dedupe, fun _ => mem_dedupe⟩

end Sys2Proof.Machine
end

section
/-! PROOFS. `FAULT` is final (`60_exceptions.md` R188): a step in it that is no RESET counts a tick, waits, or refuses a
host operation (`FaultStep`), and each clause of the rule is read off these three. -/

namespace Sys2Proof.Machine

/-- What a step in `FAULT` can do besides RESET. A refused GETPIX also writes `RDATA`. -/
inductive FaultStep (s : State) : State → Prop
  | ticks : turn s = .clock → FaultStep s (tick (turnTaken s))
  | waits : turn s ≠ .clock → operationTaken s = none → FaultStep s (turnTaken s)
  | refuses (ps : List PortSignals) (bit : Bool) : turn s = .host →
      FaultStep s (refuse { accepting ps s with rdata := bit })

theorem turn_of_operationTaken {s : State} {i : Instr} (h : operationTaken s = some i) : turn s = .host := by
  obtain ⟨ht, -, -⟩ := operationTaken_eq_some.1 h
  exact ht

theorem operationTaken_eq_none_of_turn {s : State} (h : turn s ≠ .host) : operationTaken s = none :=
  Option.eq_none_iff_forall_ne_some.2 fun _ hop => h (turn_of_operationTaken hop)

/-- Every other case of a step is guarded by another mode. -/
theorem faultStep_of_stepCase {s t : State} (h : StepCase s t) (hm : s.mode = .fault) (hr : turn s ≠ .reset) :
    FaultStep s t := by
  have hne : ∀ {m}, s.mode = m → m = .fault := fun h => h.symm.trans hm
  cases h with
  | reset ht => exact absurd ht hr
  | clock ht => exact .ticks ht
  | hostWaits ht hop => exact .waits (by simp [ht]) hop
  | sequencerWaits ht => exact .waits (by simp [ht]) (operationTaken_eq_none_of_turn (by simp [ht]))
  | configureRefused ps _ _ _ _ _ hop | setpixRefused ps _ _ _ hop | sendRefused ps hop =>
    exact .refuses ps s.rdata (turn_of_operationTaken hop)
  | getpixRefused ps _ _ hop => exact .refuses ps false (turn_of_operationTaken hop)
  | configured _ _ _ _ _ _ _ _ _ hm' | misconfigured _ _ _ _ _ _ _ _ _ hm' => cases hne hm'
  | setpix _ _ _ _ _ _ _ hm' | getpix _ _ _ _ _ _ hm' | send _ _ _ _ hm' => cases hne hm'
  | start _ hm' | byteAccepted _ _ _ hm' | byteFailed _ _ _ hm' | flushAccepted _ _ hm' | flushFailed _ _ hm' =>
    cases hne hm'

/-- The frame of a step in `FAULT`: only these can differ, and none of them belongs to the channel. -/
theorem faultStep_frame {s t : State} (h : FaultStep s t) : ∃ timer now refused resp rdata hostOps turns,
    t = { s with timer := timer, now := now, refused := refused, resp := resp, rdata := rdata, hostOps := hostOps,
                 turns := turns } := by
  cases h <;> exact ⟨_, _, _, _, _, _, _, rfl⟩

/-- TICK alone counts `TIMER` down. -/
theorem faultStep_timer {s t : State} (h : FaultStep s t) :
    (turn s = .clock → t.timer = s.timer - 1) ∧ (turn s ≠ .clock → t.timer = s.timer) := by
  cases h with
  | ticks ht => exact ⟨fun _ => rfl, absurd ht⟩
  | waits ht => exact ⟨(absurd · ht), fun _ => rfl⟩
  | refuses _ _ ht => exact ⟨fun hc => by simp [ht] at hc, fun _ => rfl⟩

theorem faultStep_refuses_operation {s t : State} (h : FaultStep s t) (hop : operationTaken s ≠ none) :
    t.refused = true ∧ t.resp = .refused := by
  cases h with
  | ticks ht => exact absurd (operationTaken_eq_none_of_turn (by simp [ht])) hop
  | waits _ hnone => exact absurd hnone hop
  | refuses => exact ⟨rfl, rfl⟩

theorem faultStep_of_sequencer {s t : State} (h : FaultStep s t) (hseq : turn s = .sequencer) :
    t = { s with turns := t.turns } := by
  cases h with
  | ticks ht | refuses _ _ ht => simp [ht] at hseq
  | waits => rfl

/-- Settles O21: a step of `FAULT` that is no RESET is a `FaultStep`, whose frame leaves `MODE`, `ERR` and the channel's
registers alone; what it does to `TIMER` and to the host's operation stands in the lemmas above. -/
theorem faultIsFinal : Obligations.FaultIsFinal := by
  intro s t hm hr hs
  have hf := faultStep_of_stepCase (step_cases hs) hm hr
  obtain ⟨hclock, hother⟩ := faultStep_timer hf
  have hop := faultStep_refuses_operation hf
  have hseq := faultStep_of_sequencer hf
  obtain ⟨_, _, _, _, _, _, _, rfl⟩ := faultStep_frame hf
  exact ⟨hm, rfl, rfl, rfl, rfl, rfl, rfl, rfl, rfl, rfl, rfl, rfl, hclock, hother, hop, hseq,
    congrArg Mode.code hm, rfl⟩

end Sys2Proof.Machine
end

section
/-! PROOFS. RESET (`70_reset_and_hazards.md` R200): the step of the reset turn is `resetBlock`, whose field lemmas give
every register its reset value (`10_state.md` R27). -/

namespace Sys2Proof.Machine

/-- Settles O1: the reset turn steps to `resetBlock (turnTaken s)` (`step_reset`). Of what the statement lists, `resetBlock`
keeps `NOW` and `TRACE` alone, and taking the turn changes neither. -/
theorem resetRestoresResetValues : Obligations.ResetRestoresResetValues := by
  intro s hreset
  obtain ⟨ts, hts⟩ := turns_of_turn hreset nofun
  refine ⟨resetBlock (turnTaken s), step_reset hts, ?_⟩
  simp

end Sys2Proof.Machine
end

section
/-! PROOFS. The invariant of the block (`BlockInv`): reset has it, every shared operation keeps it where its step is enabled,
and so every step keeps it; and no state of it stops. -/

namespace Sys2Proof.Machine

/-! ### The operations keep the invariant -/

/-- The invariant reads neither the response registers, nor the bookkeeping, nor the environment. -/
theorem blockInv_frame {s : State} (h : BlockInv s) (refused : Bool) (resp : Resp) (rdata : Bool) (now : Nat)
    (trace : List TraceEvent) (hostOps : List PortSignals) (answers : List Answer) (turns : List Turn) :
    BlockInv { s with refused := refused, resp := resp, rdata := rdata, now := now, trace := trace, hostOps := hostOps,
                      answers := answers, turns := turns } where
  canonical := h.canonical
  inGrid := h.inGrid
  errorOnlyInFault := h.errorOnlyInFault
  unconfigured := h.unconfigured
  configurationError := h.configurationError
  legal := h.legal
  packetLengthKept := h.packetLengthKept
  packetBuilt := h.packetBuilt
  indexBounded := h.indexBounded
  indexInTx := h.indexInTx
  indexInFlush := h.indexInFlush
  outstanding := h.outstanding
  timerBounded := h.timerBounded

theorem blockInv_turnTaken {s : State} (h : BlockInv s) : BlockInv (turnTaken s) := blockInv_frame h ..

theorem blockInv_accepting {s : State} (h : BlockInv s) (ps : List PortSignals) : BlockInv (accepting ps s) :=
  blockInv_frame h ..

theorem blockInv_answered {s : State} (h : BlockInv s) (rest : List Answer) : BlockInv (answered rest s) :=
  blockInv_frame h ..

/-- No error stands outside `FAULT`. -/
theorem err_eq_none {s : State} (h : BlockInv s) (hm : s.mode ≠ .fault) : s.err = .none := h.errorOnlyInFault.2 hm

/-- With nothing configured the invariant is about `MODE`, `ERR` and the outstanding SEND alone. -/
theorem blockInv_of_blank {s : State} (hb : blank s) (he : s.err = .none ↔ s.mode ≠ .fault)
    (hm : s.mode = .unconf ∨ s.mode = .fault) (hc : s.err ≠ .channel) (hp : s.sendPending = false) : BlockInv s := by
  obtain ⟨-, -, -, -, -, hfb, hpkt, htxi, htimer⟩ := id hb
  have hidle : s.mode ≠ .idle := by rcases hm with hm | hm <;> simp [hm]
  have htx : s.mode ≠ .tx := by rcases hm with hm | hm <;> simp [hm]
  have hflush : s.mode ≠ .flush := by rcases hm with hm | hm <;> simp [hm]
  exact {
    canonical := hfb ▸ wf_nil
    inGrid := by simp [cellsInRange, hfb]
    errorOnlyInFault := he
    unconfigured := fun _ => hb
    configurationError := fun _ => hb
    legal := by simp [hidle, htx, hflush, hc]
    packetLengthKept := .inl ⟨hpkt, htxi⟩
    packetBuilt := by simp [htx, hflush]
    indexBounded := by simp [htxi]
    indexInTx := by simp [htx]
    indexInFlush := by simp [hflush]
    outstanding := by simp [htx, hflush, hp]
    timerBounded := by simp [htimer] }

theorem blockInv_resetBlock (s : State) : BlockInv (resetBlock s) :=
  blockInv_of_blank (by simp [blank]) (by simp) (.inl rfl) (by simp) rfl

theorem blockInv_tick {s : State} (h : BlockInv s) : BlockInv (tick s) := by
  have hblank : blank s → blank (tick s) := by
    rintro ⟨ha, hh, hw, hb, hm, hf, hp, hi, ht⟩
    exact ⟨ha, hh, hw, hb, hm, hf, hp, hi, by simp [ht]⟩
  exact {
    canonical := h.canonical
    inGrid := h.inGrid
    errorOnlyInFault := h.errorOnlyInFault
    unconfigured := fun hm => hblank (h.unconfigured hm)
    configurationError := fun he => hblank (h.configurationError he)
    legal := h.legal
    packetLengthKept := h.packetLengthKept
    packetBuilt := h.packetBuilt
    indexBounded := h.indexBounded
    indexInTx := h.indexInTx
    indexInFlush := h.indexInFlush
    outstanding := h.outstanding
    timerBounded := Nat.le_trans (Nat.sub_le ..) h.timerBounded }

/-- CONFIGURE with legal operands: the registers were blank, so `PKT`, `TXI` and `TIMER` still are. -/
theorem blockInv_configured {s : State} (h : BlockInv s) (hm : s.mode = .unconf) (a : BitVec 4) {hh w : BitVec 16}
    {baud : BitVec 32} (margin : BitVec 32) (hh0 : hh ≠ 0) (hw0 : w ≠ 0) (hb0 : baud ≠ 0) :
    BlockInv (respond .ok
      { s with addr := a, h := hh, w := w, baud := baud, margin := margin, fb := [], mode := .idle }) := by
  obtain ⟨-, -, -, -, -, -, hpkt, htxi, htimer⟩ := h.unconfigured hm
  have herr : s.err = .none := err_eq_none h (by simp [hm])
  exact {
    canonical := wf_nil
    inGrid := by simp [cellsInRange]
    errorOnlyInFault := by simp [herr]
    unconfigured := nofun
    configurationError := by simp [herr]
    legal := fun _ => ⟨hh0, hw0, hb0⟩
    packetLengthKept := .inl ⟨hpkt, htxi⟩
    packetBuilt := by simp
    indexBounded := by simp [htxi]
    indexInTx := nofun
    indexInFlush := nofun
    outstanding := by simp
    timerBounded := by simp [htimer] }

theorem blockInv_raiseConfigurationError {s : State} (h : BlockInv s) (hm : s.mode = .unconf) :
    BlockInv (raiseConfigurationError s) :=
  blockInv_of_blank (h.unconfigured hm) (by simp) (.inr rfl) (by simp) rfl

/-- A ChannelError in a configured block: the registers of the packet keep their values. -/
theorem blockInv_raiseChannelError {s : State} (h : BlockInv s) (hm : s.mode = .tx ∨ s.mode = .flush) :
    BlockInv (raiseChannelError s) where
  canonical := h.canonical
  inGrid := h.inGrid
  errorOnlyInFault := by simp
  unconfigured := nofun
  configurationError := nofun
  legal := fun _ => h.legal (.inr (hm.imp_right .inl))
  packetLengthKept := h.packetLengthKept
  packetBuilt := by simp
  indexBounded := h.indexBounded
  indexInTx := nofun
  indexInFlush := nofun
  outstanding := by simp
  timerBounded := h.timerBounded

/-- A cell in range is written inside the grid, and in `IDLE` no packet depends on the frame buffer. -/
theorem blockInv_writeCell {s : State} (h : BlockInv s) (hm : s.mode = .idle) {r c : Nat} (v : Bool)
    (hr : r < s.h.toNat) (hc : c < s.w.toNat) : BlockInv (writeCell s r c v) := by
  have hc16 : c < 65536 := Nat.lt_trans hc s.w.isLt
  have herr : s.err = .none := err_eq_none h (by simp [hm])
  exact {
    canonical := write_wf _ _ h.canonical
    inGrid := fun e he => by
      rcases mem_write he with rfl | he
      · rw [cellKey_div r c hc16, cellKey_mod r c hc16]
        exact ⟨hr, hc⟩
      · exact h.inGrid e he
    errorOnlyInFault := h.errorOnlyInFault
    unconfigured := by simp [hm]
    configurationError := by simp [herr]
    legal := h.legal
    packetLengthKept := h.packetLengthKept
    packetBuilt := by simp [hm]
    indexBounded := h.indexBounded
    indexInTx := h.indexInTx
    indexInFlush := h.indexInFlush
    outstanding := h.outstanding
    timerBounded := h.timerBounded }

theorem blockInv_sendPending {s : State} (h : BlockInv s) (hm : s.mode = .idle) :
    BlockInv { s with sendPending := true } where
  canonical := h.canonical
  inGrid := h.inGrid
  errorOnlyInFault := h.errorOnlyInFault
  unconfigured := h.unconfigured
  configurationError := h.configurationError
  legal := h.legal
  packetLengthKept := h.packetLengthKept
  packetBuilt := h.packetBuilt
  indexBounded := h.indexBounded
  indexInTx := h.indexInTx
  indexInFlush := h.indexInFlush
  outstanding := ⟨fun _ => rfl, fun _ => .inl hm⟩
  timerBounded := h.timerBounded

theorem blockInv_start {s : State} (h : BlockInv s) (hm : s.mode = .idle) (hp : s.sendPending = true) :
    BlockInv (start s) := by
  have herr : s.err = .none := err_eq_none h (by simp [hm])
  exact {
    canonical := h.canonical
    inGrid := h.inGrid
    errorOnlyInFault := by simp [herr]
    unconfigured := nofun
    configurationError := by simp [herr]
    legal := fun _ => h.legal (.inl hm)
    packetLengthKept := .inr (nextPacket_length s)
    packetBuilt := fun _ => rfl
    indexBounded := Nat.zero_le _
    indexInTx := fun _ => Nat.lt_of_lt_of_le (by simp) (packetLength_ge s)
    indexInFlush := nofun
    outstanding := ⟨fun _ => hp, fun _ => .inr (.inl rfl)⟩
    timerBounded := Nat.le_refl _ }

/-- `FLUSH` after the byte that makes `next` the whole length, else still `TX`. -/
theorem modeAfterByte_tx_cases (next l : Nat) :
    (next = l ∧ modeAfterByte next l .tx = .flush) ∨ (next ≠ l ∧ modeAfterByte next l .tx = .tx) := by
  by_cases hl : next = l
  · exact .inl ⟨hl, if_pos hl⟩
  · exact .inr ⟨hl, modeAfterByte_other hl _⟩

theorem byteAccepted_mode_cases {s : State} (hm : s.mode = .tx) (b : Byte) :
    (s.txi + 1 = packetLength s ∧ (byteAccepted b s).mode = .flush) ∨
      (s.txi + 1 ≠ packetLength s ∧ (byteAccepted b s).mode = .tx) := by
  rw [byteAccepted_mode, hm]
  exact modeAfterByte_tx_cases _ _

/-- After an accepted byte the packet is still in flight. -/
theorem byteAccepted_mode_of_tx {s : State} (hm : s.mode = .tx) (b : Byte) :
    (byteAccepted b s).mode = .tx ∨ (byteAccepted b s).mode = .flush :=
  (byteAccepted_mode_cases hm b).symm.imp And.right And.right

/-- The last byte leads to `FLUSH`, every other one leaves a byte to write. -/
theorem blockInv_byteAccepted {s : State} (h : BlockInv s) (hm : s.mode = .tx) (b : Byte) :
    BlockInv (byteAccepted b s) := by
  have hlt := h.indexInTx hm
  have herr : s.err = .none := err_eq_none h (by simp [hm])
  have hsend : s.sendPending = true := h.outstanding.1 (.inl hm)
  have hpkt : s.pkt.length = packetLength s := by rw [h.packetBuilt (.inl hm), nextPacket_length]
  have hmode := byteAccepted_mode_cases hm b
  have hflight := byteAccepted_mode_of_tx hm b
  exact {
    canonical := h.canonical
    inGrid := h.inGrid
    errorOnlyInFault := iff_of_true herr fun hf => by rw [hf] at hflight; simp at hflight
    unconfigured := fun hu => by rw [hu] at hflight; simp at hflight
    configurationError := fun he => by simp [herr] at he
    legal := fun _ => h.legal (.inr (.inl hm))
    packetLengthKept := .inr hpkt
    packetBuilt := fun _ => h.packetBuilt (.inl hm)
    indexBounded := hlt
    indexInTx := fun ht => by
      rcases hmode with ⟨-, hf⟩ | ⟨hne, -⟩
      · cases hf.symm.trans ht
      · exact Nat.lt_of_le_of_ne hlt hne
    indexInFlush := fun hf => by
      rcases hmode with ⟨heq, -⟩ | ⟨-, ht⟩
      · exact heq
      · cases ht.symm.trans hf
    outstanding := ⟨fun _ => hsend, fun _ => .inr hflight⟩
    timerBounded := h.timerBounded }

theorem blockInv_byteFailed {s : State} (h : BlockInv s) (hm : s.mode = .tx) (b : Byte) : BlockInv (byteFailed b s) :=
  blockInv_raiseChannelError (s := record _ s) (blockInv_frame h ..) (.inl hm)

theorem blockInv_flushAccepted {s : State} (h : BlockInv s) (hm : s.mode = .flush) : BlockInv (flushAccepted s) := by
  have herr : s.err = .none := err_eq_none h (by simp [hm])
  exact {
    canonical := h.canonical
    inGrid := h.inGrid
    errorOnlyInFault := by simp [herr]
    unconfigured := nofun
    configurationError := by simp [herr]
    legal := fun _ => h.legal (.inr (.inr (.inl hm)))
    packetLengthKept := h.packetLengthKept
    packetBuilt := by simp
    indexBounded := h.indexBounded
    indexInTx := nofun
    indexInFlush := nofun
    outstanding := by simp
    timerBounded := h.timerBounded }

theorem blockInv_flushFailed {s : State} (h : BlockInv s) (hm : s.mode = .flush) : BlockInv (flushFailed s) :=
  blockInv_raiseChannelError (s := record _ s) (blockInv_frame h ..) (.inr hm)

/-! ### Every step -/

theorem blockInv_of_stepCase {s t : State} (h : BlockInv s) (hst : StepCase s t) : BlockInv t := by
  cases hst with
  | reset => exact blockInv_resetBlock _
  | clock => exact blockInv_tick (blockInv_turnTaken h)
  | configured ps addr _ _ _ margin _ _ _ hm _ hh hw hb =>
    exact blockInv_configured (blockInv_accepting h ps) hm (addressField addr) margin hh hw hb
  | misconfigured ps _ _ _ _ _ _ _ _ hm => exact blockInv_raiseConfigurationError (blockInv_accepting h ps) hm
  | setpix ps row col v _ _ _ hm hr =>
    obtain ⟨hrow, hcol⟩ := inRange_eq_true.1 hr
    exact blockInv_frame (blockInv_writeCell (blockInv_accepting h ps) hm v hrow hcol) ..
  | send ps _ _ _ hm => exact blockInv_sendPending (blockInv_accepting h ps) hm
  | start _ hm hp => exact blockInv_start (blockInv_turnTaken h) hm hp
  | byteAccepted b rest _ hm => exact blockInv_byteAccepted (blockInv_answered h rest) hm b
  | byteFailed b rest _ hm => exact blockInv_byteFailed (blockInv_answered h rest) hm b
  | flushAccepted rest _ hm => exact blockInv_flushAccepted (blockInv_answered h rest) hm
  | flushFailed rest _ hm => exact blockInv_flushFailed (blockInv_answered h rest) hm
  | hostWaits | sequencerWaits | configureRefused | setpixRefused | getpixRefused | getpix | sendRefused =>
    exact blockInv_frame h ..

/-- Settles O25: one lemma per operation that writes a register of the invariant, and a frame for the steps that write
none. -/
theorem stepKeepsInvariant : Obligations.StepKeepsInvariant := fun _ _ h hs => blockInv_of_stepCase h (step_cases hs)

/-- Settles O2: the state after reset is what RESET makes of it, so the invariant is RESET's; the rest is read off. -/
theorem resetSatisfiesInvariant : Obligations.ResetSatisfiesInvariant := by
  refine ⟨blockInv_resetBlock State.reset, ⟨fun _ => rfl, trivial, nofun⟩, ⟨nofun, fun _ => rfl, ?_, nofun⟩, rfl, rfl,
    rfl⟩
  rintro (hm | hm) <;> cases hm

/-! ### No step stops -/

/-- In `TX` there is a byte to write (`20_memory.md` R40). -/
theorem exists_byte_of_tx {s : State} (h : BlockInv s) (hm : s.mode = .tx) : ∃ b, s.pkt[s.txi]? = some b := by
  have hlt : s.txi < s.pkt.length := by
    rw [h.packetBuilt (.inl hm), nextPacket_length]
    exact h.indexInTx hm
  exact ⟨_, List.getElem?_eq_getElem hlt⟩

theorem exists_sequencerTurn {s : State} (h : BlockInv s) : ∃ t, sequencerTurn s = .next t := by
  cases hm : s.mode with
  | unconf | fault => rw [sequencerTurn, hm]; exact ⟨s, rfl⟩
  | idle =>
    rw [sequencerTurn_idle hm]
    split
    · exact ⟨_, rfl⟩
    · exact ⟨_, rfl⟩
  | tx =>
    obtain ⟨b, hb⟩ := exists_byte_of_tx h hm
    rw [sequencerTurn_tx hm]
    rcases ha : s.answers with _ | ⟨⟨⟩, rest⟩
    · rw [txByte, ha]; exact ⟨s, rfl⟩
    · exact ⟨_, txByte_ok hb ha⟩
    · exact ⟨_, txByte_err hb ha⟩
  | flush =>
    rw [sequencerTurn_flush hm]
    rcases ha : s.answers with _ | ⟨⟨⟩, rest⟩
    · rw [txFlush, ha]; exact ⟨s, rfl⟩
    · exact ⟨_, txFlush_ok ha⟩
    · exact ⟨_, txFlush_err ha⟩

/-- Settles O26: a host operation, TICK and RESET always answer a next state, and the sequencer finds its byte
(`exists_byte_of_tx`). -/
theorem stepNeverStops : Obligations.StepNeverStops := by
  intro s h
  rw [step_eq]
  cases turn s with
  | host =>
    cases hop : acceptedOperation (turnTaken s) with
    | none => exact ⟨turnTaken s, by rw [agentStep, hop]⟩
    | some is =>
      obtain ⟨i, s'⟩ := is
      obtain ⟨p, ps, -, -, rfl, rfl⟩ := acceptedOperation_some.1 hop
      exact ⟨_, by rw [agentStep, hop]; exact exec_host (decodeSignals_port p) _⟩
  | sequencer => exact exists_sequencerTurn (blockInv_turnTaken h)
  | clock => exact ⟨_, rfl⟩
  | reset => exact ⟨_, rfl⟩

end Sys2Proof.Machine
end

section
/-! PROOFS. The two encodings read back (`30_encoding.md` R60, R70; `41_packet_framer.md` R98): a host operation from its
19 bytes, a frame from its parts, and no other bytes are a frame. -/

namespace Sys2Proof

/-! ### The host port -/

theorem pair_extractLsb' {w : Nat} (x : BitVec w) (k : Nat) :
    pair (x.extractLsb' k 8) (x.extractLsb' (k + 8) 8) = x.extractLsb' k 16 :=
  BitVec.extractLsb'_append_extractLsb'_eq_extractLsb' rfl

theorem pair_bytes (x : BitVec 16) : pair (x.extractLsb' 0 8) (x.extractLsb' 8 8) = x :=
  (pair_extractLsb' x 0).trans BitVec.extractLsb'_eq_self

theorem quad_bytes (x : BitVec 32) :
    quad (x.extractLsb' 0 8) (x.extractLsb' 8 8) (x.extractLsb' 16 8) (x.extractLsb' 24 8) = x := by
  rw [quad, pair_extractLsb' x 0, pair_extractLsb' x 16]
  exact (BitVec.extractLsb'_append_extractLsb'_eq_extractLsb' rfl).trans BitVec.extractLsb'_eq_self

theorem signalsOfBytes_bytesOfSignals (p : PortSignals) : signalsOfBytes (bytesOfSignals p) = some p := by
  have hop : (p.op.setWidth 8).setWidth 2 = p.op := BitVec.setWidth_setWidth_of_le _ (by decide)
  have hv : (if p.v then (1 : Byte) else 0).getLsbD 0 = p.v := by cases p.v <;> rfl
  simp only [bytesOfSignals, bytesOf16, bytesOf32, List.cons_append, List.nil_append, signalsOfBytes, pair_bytes,
    quad_bytes, hop, hv]

theorem decode_host_bytesOfSignals (p : PortSignals) : decode .host (bytesOfSignals p) = .ok (decodeSignals p) := by
  rw [decode, signalsOfBytes_bytesOfSignals]

/-- A nibble is an address that has a hex digit. -/
theorem setWidth_toNat_le_fifteen (a : BitVec 4) : (a.setWidth 8).toNat ≤ 15 := by
  rw [BitVec.toNat_setWidth]; omega

theorem setWidth_four_setWidth_eight (a : BitVec 4) : (a.setWidth 8).setWidth 4 = a :=
  BitVec.setWidth_setWidth_of_le _ (by decide)

theorem setWidth_eight_setWidth_four {addr : BitVec 8} (h : addr.toNat ≤ 15) : (addr.setWidth 4).setWidth 8 = addr := by
  apply BitVec.eq_of_toNat_eq
  simp only [BitVec.toNat_setWidth]
  omega

theorem decode_wire_eq_ok_iff {f : Bytes} {i : Instr} :
    decode .wire f = .ok i ↔ ∃ a p, Machine.decodePacket f = .ok (a, p) ∧ i = .frame (a.setWidth 8) p := by
  rw [decode]
  cases Machine.decodePacket f with
  | error why => simp
  | ok ap => simp [Prod.ext_iff, eq_comm]

end Sys2Proof

namespace Sys2Proof.Machine

/-! ### The frame by its parts -/

/-- A byte sequence cut as a frame is: five bytes, the payload's characters, and three bytes. -/
def frameOf (b0 b1 b2 b3 b4 : Byte) (cs : Bytes) (e k0 k1 : Byte) : Bytes :=
  b0 :: b1 :: b2 :: b3 :: b4 :: (cs ++ [e, k0, k1])

section FrameOf
variable (b0 b1 b2 b3 b4 : Byte) (cs : Bytes) (e k0 k1 : Byte)

@[simp] theorem frameOf_length : (frameOf b0 b1 b2 b3 b4 cs e k0 k1).length = 8 + cs.length := by
  simp [frameOf]; omega

/-- What DECODE takes the checksum over: all but the first byte and the last two. -/
theorem frameOf_body :
    ((frameOf b0 b1 b2 b3 b4 cs e k0 k1).drop 1).take (5 + cs.length) = b1 :: b2 :: b3 :: b4 :: (cs ++ [e]) := by
  have hcs : (cs ++ [e, k0, k1]).take (cs.length + 1) = cs ++ [e] := by simp [List.take_append]
  rw [Nat.add_comm]
  simp [frameOf, hcs]

theorem frameOf_payload : ((frameOf b0 b1 b2 b3 b4 cs e k0 k1).drop 5).take cs.length = cs := List.take_left

theorem frameOf_trailer (j : Nat) :
    (frameOf b0 b1 b2 b3 b4 cs e k0 k1).getD (5 + j + cs.length) 0 = [e, k0, k1].getD j 0 := by
  rw [Nat.add_assoc, Nat.add_comm 5]
  simp only [frameOf, List.getD_cons_succ]
  rw [List.getD_append_right _ _ _ _ (Nat.le_add_left ..), Nat.add_sub_cancel]

end FrameOf

/-- Any eight bytes or more can be cut so. -/
theorem exists_frameOf {f : Bytes} (h8 : 8 ≤ f.length) :
    ∃ b0 b1 b2 b3 b4 cs e k0 k1, f = frameOf b0 b1 b2 b3 b4 cs e k0 k1 := by
  match f, h8 with
  | b0 :: b1 :: b2 :: b3 :: b4 :: g, h8 =>
    have hlast : (g.drop (g.length - 3)).length = 3 := by simp at h8 ⊢; omega
    obtain ⟨e, k0, k1, hk⟩ := List.length_eq_three.1 hlast
    exact ⟨b0, b1, b2, b3, b4, g.take (g.length - 3), e, k0, k1, by rw [frameOf, ← hk, List.take_append_drop]⟩

theorem encodePacket_eq_frameOf (a : BitVec 4) (p : Bytes) :
    encodePacket a p = frameOf stx command (hexU a) (hexU (highNibble (BitVec.ofNat 8 (p.length % 256))))
      (hexU (lowNibble (BitVec.ofNat 8 (p.length % 256)))) (payloadField p) etx
      (hexU (highNibble (checksum (body a p)))) (hexU (lowNibble (checksum (body a p)))) := by
  simp [encodePacket, body, frameOf, resolutionField, hex2]

/-- DECODE on a sequence cut as a frame: each of its tests reads one part (`41_packet_framer.md` R98). -/
theorem decodePacket_frameOf_eq_ok_iff {b0 b1 b2 b3 b4 e k0 k1 : Byte} {cs p : Bytes} {a : BitVec 4} :
    decodePacket (frameOf b0 b1 b2 b3 b4 cs e k0 k1) = .ok (a, p) ↔
      cs.length % 2 = 0 ∧ b0 = stx ∧ b1 = command ∧ e = etx ∧ unhex1 b2 = some a ∧ unhexPairs cs = some p ∧
      ∃ len ck, unhex2 b3 b4 = some len ∧ unhex2 k0 k1 = some ck ∧ len.toNat = cs.length / 2 % 256 ∧
        (byteSum (b1 :: b2 :: b3 :: b4 :: (cs ++ [e])) + ck.toNat) % 256 = 0 := by
  by_cases heven : cs.length % 2 = 0
  swap
  · simp [decodePacket, heven]
  have hn : 2 * (cs.length / 2) = cs.length := Nat.mul_div_cancel' (Nat.dvd_of_mod_eq_zero heven)
  have he := frameOf_trailer b0 b1 b2 b3 b4 cs e k0 k1 0
  have hk0 := frameOf_trailer b0 b1 b2 b3 b4 cs e k0 k1 1
  have hk1 := frameOf_trailer b0 b1 b2 b3 b4 cs e k0 k1 2
  simp only [decodePacket, frameOf_length, Nat.add_sub_cancel_left, hn, he, hk0, hk1, frameOf_body, frameOf_payload,
    heven]
  simp only [frameOf, List.getD_cons_zero, List.getD_cons_succ]
  by_cases h0 : b0 = stx
  swap
  · simp [h0]
  by_cases h1 : b1 = command
  swap
  · simp [h0, h1]
  by_cases h2 : e = etx
  swap
  · simp [h0, h1, h2]
  rcases unhex1 b2 with _ | a'
  · simp [h0, h1, h2]
  rcases unhex2 b3 b4 with _ | len
  · simp [h0, h1, h2]
  rcases unhexPairs cs with _ | p'
  · simp [h0, h1, h2]
  rcases unhex2 k0 k1 with _ | ck
  · simp [h0, h1, h2]
  by_cases hlen : len.toNat = cs.length / 2 % 256
  swap
  · simp [h0, h1, h2, hlen]
  by_cases hsum : (byteSum (b1 :: b2 :: b3 :: b4 :: (cs ++ [e])) + ck.toNat) % 256 = 0
  · simp [← h0, ← h1, ← h2, hlen, hsum]
  · simp [← h0, ← h1, ← h2, hlen, hsum]

/-! ### The checksum -/

/-- The checksum is the one byte that brings the sum to 0 modulo 256 (`41_packet_framer.md` R92). -/
theorem add_toNat_mod_eq_zero_iff {b : Bytes} {ck : Byte} : (byteSum b + ck.toNat) % 256 = 0 ↔ ck = checksum b := by
  have hck := ck.isLt
  rw [← BitVec.toNat_inj, checksum_toNat]
  omega

/-- An accumulator of 8 bits holds the sum modulo 256 (`41_packet_framer.md` R92). -/
theorem foldl_add_eq_ofNat (b : Bytes) (acc : Byte) :
    b.foldl (fun acc x => acc + x) acc = BitVec.ofNat 8 (acc.toNat + byteSum b) := by
  induction b generalizing acc with
  | nil => simp [byteSum]
  | cons x b ih =>
    apply BitVec.eq_of_toNat_eq
    rw [List.foldl_cons, ih]
    simp [byteSum, Nat.add_assoc]

/-- Settles O40: the invariant says which byte the checksum is (`add_toNat_mod_eq_zero_iff`), and the 8-bit accumulator
holds the sum modulo 256 (`foldl_add_eq_ofNat`). -/
theorem checksumMakesBodySumToZero : Obligations.ChecksumMakesBodySumToZero := by
  intro b
  refine ⟨checksum_toNat b, add_toNat_mod_eq_zero_iff.2 rfl, fun h0 => ?_, ?_⟩
  · exact (add_toNat_mod_eq_zero_iff.1 (by simpa [byteSum] using h0)).symm
  · refine (add_toNat_mod_eq_zero_iff.1 ?_).symm
    rw [foldl_add_eq_ofNat]
    simp only [BitVec.toNat_sub, BitVec.toNat_ofNat]
    omega

/-! ### Decode and encode -/

theorem decodePacket_encodePacket (a : BitVec 4) (p : Bytes) : decodePacket (encodePacket a p) = .ok (a, p) := by
  have hbody : body a p = command :: hexU a :: hexU (highNibble (BitVec.ofNat 8 (p.length % 256))) ::
      hexU (lowNibble (BitVec.ofNat 8 (p.length % 256))) :: (payloadField p ++ [etx]) := by
    simp [body, resolutionField, hex2]
  rw [encodePacket_eq_frameOf, decodePacket_frameOf_eq_ok_iff]
  refine ⟨by simp, rfl, rfl, rfl, unhex1_hexU a, unhexPairs_payloadField p, _, _, unhex2_hex2 _, unhex2_hex2 _, ?_, ?_⟩
  · simp
  · rw [← hbody]
    exact add_toNat_mod_eq_zero_iff.2 rfl

/-- Bytes that DECODE accepts are the frame of what it answers (`41_packet_framer.md` R98). -/
theorem encodePacket_of_decodePacket {f p : Bytes} {a : BitVec 4} (h : decodePacket f = .ok (a, p)) :
    encodePacket a p = f := by
  have h8 : 8 ≤ f.length := by
    by_contra hshort
    simp [decodePacket, Nat.lt_of_not_le hshort] at h
  obtain ⟨b0, b1, b2, b3, b4, cs, e, k0, k1, rfl⟩ := exists_frameOf h8
  obtain ⟨-, rfl, rfl, rfl, ha, hp, len, ck, hlen, hck, hres, hsum⟩ := decodePacket_frameOf_eq_ok_iff.1 h
  obtain rfl := payloadField_of_unhexPairs hp
  obtain rfl := hexU_of_unhex1 ha
  have hresolution : resolutionField p.length = [b3, b4] := by
    rw [← hex2_of_unhex2 hlen, resolutionField]
    congr 1
    apply BitVec.eq_of_toNat_eq
    simp [hres]
  have hbody : body a p = command :: hexU a :: b3 :: b4 :: (payloadField p ++ [etx]) := by
    simp [body, hresolution]
  rw [← hbody, add_toNat_mod_eq_zero_iff] at hsum
  rw [encodePacket, ← hsum, hbody, hex2_of_unhex2 hck]
  simp [frameOf]

/-- Settles O41: a host operation is read from its 19 bytes by its code; a frame reads back by
`decodePacket_encodePacket`. -/
theorem decodeInvertsEncode : Obligations.DecodeInvertsEncode := by
  intro i hwf
  cases i with
  | configure addr h w baud margin =>
    exact ⟨_, rfl, (decode_host_bytesOfSignals _).trans (congrArg _ (decodeSignals_configure rfl))⟩
  | setpix row col v => exact ⟨_, rfl, (decode_host_bytesOfSignals _).trans (congrArg _ (decodeSignals_setpix rfl))⟩
  | getpix row col => exact ⟨_, rfl, (decode_host_bytesOfSignals _).trans (congrArg _ (decodeSignals_getpix rfl))⟩
  | send => exact ⟨_, rfl, (decode_host_bytesOfSignals _).trans (congrArg _ (decodeSignals_send rfl))⟩
  | frame addr p =>
    have ha : addr.toNat ≤ 15 := by simpa [Instr.wellFormed] using hwf
    refine ⟨_, if_pos ha, decode_wire_eq_ok_iff.2 ⟨addr.setWidth 4, p, decodePacket_encodePacket _ p, ?_⟩⟩
    rw [setWidth_eight_setWidth_four ha]

/-- Settles O42: the decoder answers a FRAME with a nibble for its address, and the bytes are its frame
(`encodePacket_of_decodePacket`). -/
theorem decodeAcceptsOnlyFrames : Obligations.DecodeAcceptsOnlyFrames := by
  intro f i h
  obtain ⟨a, p, hd, rfl⟩ := decode_wire_eq_ok_iff.1 h
  have ha := setWidth_toNat_le_fifteen a
  refine ⟨decide_eq_true ha, (if_pos ha).trans ?_⟩
  rw [setWidth_four_setWidth_eight, encodePacket_of_decodePacket hd]

/-- Settles O44: the decoder computes on literal bytes. -/
theorem sampleWordsDecode : Obligations.SampleWordsDecode := by
  refine ⟨rfl, rfl, rfl, rfl, ?_⟩
  decide

end Sys2Proof.Machine
end

section
/-! PROOFS. The frame in flight (`42_transmission_scheduler.md` R112, R113; log 11): executing it is the sequencer's next
channel transaction, which does not read the frame buffer. -/

namespace Sys2Proof.Machine

theorem frameInFlight_iff {a : BitVec 4} {p : Bytes} {s : State} :
    frameInFlight a p s = true ↔ (s.mode = .tx ∨ s.mode = .flush) ∧ s.pkt = encodePacket a p := by
  simp [frameInFlight]

/-- Executing the frame in flight is the sequencer's turn. -/
theorem exec_frame_inFlight {addr : BitVec 8} {p : Bytes} {s : State} (ha : addr.toNat ≤ 15)
    (hm : s.mode = .tx ∨ s.mode = .flush) (hp : s.pkt = encodePacket (addr.setWidth 4) p) :
    exec (.frame addr p) s = sequencerTurn s := by
  rw [exec, execFrame, if_neg (Nat.not_lt.2 ha), if_pos (frameInFlight_iff.2 ⟨hm, hp⟩)]

/-- Settles O18: the two tests of FRAME, in their order. -/
theorem frameNotInFlightRefused : Obligations.FrameNotInFlightRefused := by
  intro addr p s
  refine ⟨fun ha => if_pos ha, fun ha hnot => ?_⟩
  rw [exec, execFrame, if_neg (Nat.not_lt.2 ha), if_neg]
  rw [frameInFlight_iff]
  rintro ⟨hm, hp⟩
  rcases hnot with ⟨htx, hflush⟩ | hne
  · exact hm.elim htx hflush
  · exact hne hp

/-- Settles O4: what `PKT` decodes to is a FRAME of which it is the encoding (`encodePacket_of_decodePacket`), so that
FRAME is in flight. -/
theorem stepRunsFrameInFlight : Obligations.StepRunsFrameInFlight := by
  intro s i ts hts hm hdec
  obtain ⟨a, p, hd, rfl⟩ := decode_wire_eq_ok_iff.1 hdec
  have hpkt : s.pkt = encodePacket ((a.setWidth 8).setWidth 4) p := by
    rw [setWidth_four_setWidth_eight, encodePacket_of_decodePacket hd]
  have htaken : turnTaken s = { s with turns := ts } := by rw [turnTaken, hts]; rfl
  rw [step_sequencer hts, ← htaken]
  exact (exec_frame_inFlight (s := turnTaken s) (setWidth_toNat_le_fifteen a) hm hpkt).symm

/-- What the sequencer's turn can do while a packet is in flight: wait for the channel, or a transaction with its
answer. -/
inductive TransactionCase (s : State) : State → Prop
  | waits : s.answers = [] → TransactionCase s s
  | byteAccepted (b : Byte) (rest : List Answer) : s.mode = .tx → s.pkt[s.txi]? = some b → s.answers = .ok :: rest →
      TransactionCase s (byteAccepted b { s with answers := rest })
  | byteFailed (b : Byte) (rest : List Answer) : s.mode = .tx → s.pkt[s.txi]? = some b → s.answers = .err :: rest →
      TransactionCase s (byteFailed b { s with answers := rest })
  | flushAccepted (rest : List Answer) : s.mode = .flush → s.answers = .ok :: rest →
      TransactionCase s (flushAccepted { s with answers := rest })
  | flushFailed (rest : List Answer) : s.mode = .flush → s.answers = .err :: rest →
      TransactionCase s (flushFailed { s with answers := rest })

theorem transactionCase_of_tx {s t : State} (hm : s.mode = .tx) (h : sequencerTurn s = .next t) :
    TransactionCase s t := by
  rw [sequencerTurn_tx hm, txByte] at h
  split at h
  · rename_i ha
    cases h
    exact .waits ha
  · cases h
  · rename_i rest b ha hb
    cases h
    exact .byteAccepted b rest hm hb ha
  · rename_i rest b ha hb
    cases h
    exact .byteFailed b rest hm hb ha

theorem transactionCase_of_flush {s t : State} (hm : s.mode = .flush) (h : sequencerTurn s = .next t) :
    TransactionCase s t := by
  rw [sequencerTurn_flush hm, txFlush] at h
  split at h
  · rename_i ha
    cases h
    exact .waits ha
  · rename_i rest ha
    cases h
    exact .flushAccepted rest hm ha
  · rename_i rest ha
    cases h
    exact .flushFailed rest hm ha

theorem sequencerTurn_of_no_answer {s : State} (hm : s.mode = .tx ∨ s.mode = .flush) (ha : s.answers = []) :
    sequencerTurn s = .next s := by
  rcases hm with hm | hm
  · rw [sequencerTurn_tx hm, txByte, ha]
  · rw [sequencerTurn_flush hm, txFlush, ha]

/-- While a packet is in flight these are the sequencer's next states, and no others. -/
theorem sequencerTurn_eq_next_iff {s t : State} (hm : s.mode = .tx ∨ s.mode = .flush) :
    sequencerTurn s = .next t ↔ TransactionCase s t := by
  refine ⟨fun h => hm.elim (transactionCase_of_tx · h) (transactionCase_of_flush · h), fun h => ?_⟩
  cases h with
  | waits ha => exact sequencerTurn_of_no_answer hm ha
  | byteAccepted b rest htx hb ha => rw [sequencerTurn_tx htx, txByte_ok hb ha]
  | byteFailed b rest htx hb ha => rw [sequencerTurn_tx htx, txByte_err hb ha]
  | flushAccepted rest hflush ha => rw [sequencerTurn_flush hflush, txFlush_ok ha]
  | flushFailed rest hflush ha => rw [sequencerTurn_flush hflush, txFlush_err ha]

/-- A transaction reads the packet latched by START and no cell of the frame buffer. -/
theorem transactionCase_fb {s t : State} (h : TransactionCase s t) (fb : Memory) :
    TransactionCase { s with fb := fb } { t with fb := fb } ∧ t.fb = s.fb := by
  cases h with
  | waits ha => exact ⟨.waits ha, rfl⟩
  | byteAccepted b rest hm hb ha => exact ⟨.byteAccepted b rest hm hb ha, rfl⟩
  | byteFailed b rest hm hb ha => exact ⟨.byteFailed b rest hm hb ha, rfl⟩
  | flushAccepted rest hm ha => exact ⟨.flushAccepted rest hm ha, rfl⟩
  | flushFailed rest hm ha => exact ⟨.flushFailed rest hm ha, rfl⟩

/-- Settles O24: the cases of the sequencer's turn commute with replacing the frame buffer (`transactionCase_fb`). -/
theorem sequencerIgnoresFrameBuffer : Obligations.SequencerIgnoresFrameBuffer := by
  intro s t fb hm h
  obtain ⟨hcase, hfb⟩ := transactionCase_fb ((sequencerTurn_eq_next_iff hm).1 h) fb
  exact ⟨(sequencerTurn_eq_next_iff (s := { s with fb := fb }) hm).2 hcase, hfb⟩

/-- With a byte left to write, or every byte written, the sequencer's turn does not stop. -/
theorem exists_transactionCase {s : State} (h : s.mode = .tx ∧ s.txi < s.pkt.length ∨ s.mode = .flush) :
    ∃ t, TransactionCase s t := by
  rcases ha : s.answers with _ | ⟨a, rest⟩
  · exact ⟨s, .waits ha⟩
  rcases h with ⟨hm, hlt⟩ | hm
  · have hb : s.pkt[s.txi]? = some s.pkt[s.txi] := List.getElem?_eq_getElem hlt
    cases a with
    | ok => exact ⟨_, .byteAccepted _ rest hm hb ha⟩
    | err => exact ⟨_, .byteFailed _ rest hm hb ha⟩
  · cases a with
    | ok => exact ⟨_, .flushAccepted rest hm ha⟩
    | err => exact ⟨_, .flushFailed rest hm ha⟩

/-- Settles O17: FRAME in flight is the sequencer's turn (`exec_frame_inFlight`), and each clause is read off the case that
the mode and the channel's answer select. -/
theorem frameRunsNextTransaction : Obligations.FrameRunsNextTransaction := by
  intro a p s hp h
  have hm : s.mode = .tx ∨ s.mode = .flush := h.imp_left And.left
  have hexec : exec (.frame (a.setWidth 8) p) s = sequencerTurn s :=
    exec_frame_inFlight (setWidth_toNat_le_fifteen a) hm (by rw [setWidth_four_setWidth_eight, hp])
  obtain ⟨t, hcase⟩ := exists_transactionCase (hp ▸ h)
  refine ⟨hexec, t, hexec.trans ((sequencerTurn_eq_next_iff hm).2 hcase), ?_⟩
  rw [← hp]
  cases hcase with
  | waits ha => exact ⟨rfl, fun _ => rfl, by simp [ha]⟩
  | byteAccepted b rest htx hb ha => exact ⟨rfl, by simp [ha, htx, hb]⟩
  | byteFailed b rest _ _ ha => exact ⟨rfl, by simp [ha]⟩
  | flushAccepted rest hflush ha => exact ⟨rfl, by simp [ha, hflush]⟩
  | flushFailed rest _ ha => exact ⟨rfl, by simp [ha]⟩

end Sys2Proof.Machine
end

section
/-! PROOFS. The host port and the agents that wait (`00_scope.md` R8, `43_host_operations.md` R140, R144, R146), and the
status outputs (`10_state.md` R21). -/

namespace Sys2Proof.Machine

theorem turnTaken_of_cons {s : State} {a : Turn} {ts : List Turn} (h : s.turns = a :: ts) :
    turnTaken s = { s with turns := ts } := by rw [turnTaken, h]; rfl

theorem turnTaken_of_nil {s : State} (h : s.turns = []) : turnTaken s = s := by
  rw [turnTaken, h, List.tail_nil, ← h]

theorem decode_host_eq_ok {bytes : Bytes} {p : PortSignals} {i : Instr} (hp : signalsOfBytes bytes = some p)
    (h : decode .host bytes = .ok i) : decodeSignals p = i := by
  rw [decode, hp] at h
  exact Except.ok.inj h

/-- Settles O3: the port accepts the operation its signals decode to (`step_accepted`), which is what executing it does at
a free port (`exec_host_free`). -/
theorem stepRunsDecodedOperation : Obligations.StepRunsDecodedOperation := by
  intro s bytes p i ts ps hts hps hfree hp hi
  obtain rfl := decode_host_eq_ok hp hi
  have hacc : accepting ps s = { s with turns := ts, hostOps := ps } := by rw [accepting, turnTaken_of_cons hts]
  rw [step_accepted hts hps hfree, ← hacc]
  exact (exec_host_free (s := accepting ps s) (decodeSignals_port p) hfree).symm

/-- The host waits while the port is occupied, or when it has nothing to issue. -/
theorem step_hostWaits {s : State} {ts : List Turn} (hts : s.turns = .host :: ts)
    (h : portBusy s = true ∨ s.hostOps = []) : step s = .next (turnTaken s) := by
  have hnone : acceptedOperation (turnTaken s) = none := acceptedOperation_none.2 h
  rw [step_eq, turn_of_cons hts, agentStep, hnone]

theorem step_of_nil {s : State} (hts : s.turns = []) : step s = .next (tick s) := by
  rw [step_eq, turn_of_nil hts, turnTaken_of_nil hts]
  rfl

/-- Settles O5: one equation of `step` per turn. -/
theorem stepOfWaitingAgents : Obligations.StepOfWaitingAgents := by
  refine ⟨fun s ts hts => ?_, fun s => step_of_nil, fun s ts hts h => ?_, fun s ts hts hm ha => ?_, fun s ts hts => ?_⟩
  · rw [step_clock hts, turnTaken_of_cons hts]
  · rw [step_hostWaits hts h, turnTaken_of_cons hts]
  · rw [step_sequencer hts, sequencerTurn_of_no_answer (s := turnTaken s) hm ha, turnTaken_of_cons hts]
  · rw [step_reset hts, turnTaken_of_cons hts]
    rfl

/-- Settles O10: at an occupied port every host operation waits (`exec_host_busy`). -/
theorem occupiedPortHasNoEffect : Obligations.OccupiedPortHasNoEffect := fun _ _ hi hs =>
  exec_host_busy hi hs

theorem exec_send_idle {s : State} (hs : portBusy s = false) (hm : s.mode = .idle) :
    exec .send s = .next { s with sendPending := true } := by
  rw [exec_host_free rfl hs, hostEffect, sendEffect, if_neg (by simp [hm])]

/-- The status output `ready` (`10_state.md` R21). -/
theorem ready_iff {s : State} : (statusOutputs s).ready = true ↔ s.mode = .idle ∧ s.timer = 0 := by
  simp [statusOutputs, ready]

/-- Settles O13: the codes are the tables of R11 and R18, and each flag is its test. -/
theorem statusOutputsReadTheState : Obligations.StatusOutputsReadTheState := by
  intro s
  refine ⟨?_, ?_, by simp [statusOutputs, timerZero], rfl, ready_iff, by simp [statusOutputs, busy]⟩
  · show s.mode.code = _
    cases s.mode <;> rfl
  · show s.err.code = _
    cases s.err <;> rfl

/-- The sequencer enters `TX` from no mode but `IDLE` by START. -/
theorem startEnabled_of_enters_tx {s t : State} (hm : s.mode ≠ .tx ∧ s.mode ≠ .flush) (h : sequencerTurn s = .next t)
    (ht : t.mode = .tx) : startEnabled s = true := by
  have hsame : sequencerTurn s ≠ .next s := by
    intro hs
    obtain rfl := Host.Outcome.next.inj (hs.symm.trans h)
    exact hm.1 ht
  cases hmode : s.mode with
  | unconf | fault => exact absurd (by rw [sequencerTurn, hmode]) hsame
  | tx => exact absurd hmode hm.1
  | flush => exact absurd hmode hm.2
  | idle =>
    by_contra hdis
    exact hsame (by rw [sequencerTurn_idle hmode, if_neg hdis])

/-- Settles O12: an accepted SEND in `IDLE` enables START exactly when `TIMER = 0`; a refused one leaves a mode in which
the sequencer waits. -/
theorem readyMeansSendStartsAtOnce : Obligations.ReadyMeansSendStartsAtOnce := by
  intro s hs
  rw [ready_iff]
  constructor
  · rintro ⟨hm, h0⟩
    have hstart : startEnabled { s with sendPending := true } = true := startEnabled_iff.2 ⟨rfl, hm, h0⟩
    refine ⟨_, start { s with sendPending := true }, exec_send_idle hs hm, ?_, rfl⟩
    rw [agentStep, sequencerTurn_idle (s := { s with sendPending := true }) hm, if_pos hstart]
  · rintro ⟨t, u, ht, hu, hmu⟩
    rw [exec_host_free_eq_next rfl hs, hostEffect] at ht
    obtain ⟨-, htx, hflush⟩ := portBusy_eq_false.1 hs
    have hkept : t.mode = s.mode ∧ t.timer = s.timer := by
      rcases sendEffect_cases s hs with ⟨-, he⟩ | ⟨-, he⟩ <;> exact he.symm.trans ht ▸ ⟨rfl, rfl⟩
    obtain ⟨hmode, htimer⟩ := hkept
    have hstart := startEnabled_of_enters_tx (by rw [hmode]; exact ⟨htx, hflush⟩) hu hmu
    rw [startEnabled_iff, hmode, htimer] at hstart
    exact hstart.2

end Sys2Proof.Machine

namespace Sys2Proof.HostOperations
open Sys2Proof.Machine

/-- Settles O9: the two branches of SEND, refused and accepted. -/
theorem sendEffect : Obligations.SendEffect := fun _ hs =>
  ⟨(exec_send_eq_refuse_iff hs).2, exec_send_idle hs⟩

end Sys2Proof.HostOperations
end

section
/-! PROOFS. What a step writes: each register only in the steps that the state table lists for it (`10_state.md` R10), and of
the environment's lists and `TRACE` at most one item (`20_memory.md` R50, R54). -/

namespace Sys2Proof.Machine

theorem transaction_of_cons {m : Mode} {a : Answer} {rest : List Answer} {s : State} (ht : turn s = .sequencer)
    (hm : s.mode = m) (ha : s.answers = a :: rest) : transaction m a s := ⟨ht, hm, by rw [ha]; rfl⟩

/-! ### The written-by column -/

/-- The next step is CONFIGURE where it is not refused. -/
def configures (s : State) : Prop :=
  s.mode = .unconf ∧ ∃ addr h w baud margin, operationTaken s = some (.configure addr h w baud margin)

/-- Every row of the transition table but RESET's has one of these events. -/
theorem modeTable_event {s : State} {m : Mode} (h : ModeTable s m) (hr : turn s ≠ .reset) :
    configures s ∨ starts s ∨ (∃ a, transaction .tx a s) ∨ ∃ a, transaction .flush a s := by
  cases h with
  | reset ht => exact absurd ht hr
  | configured hm hop | misconfigured hm hop => exact .inl ⟨hm, _, _, _, _, _, hop⟩
  | started hst => exact .inr (.inl hst)
  | byteWritten htr | lastByteWritten htr | writeFailed htr => exact .inr (.inr (.inl ⟨_, htr⟩))
  | flushed htr | flushFailed htr => exact .inr (.inr (.inr ⟨_, htr⟩))

section Written
variable {s t : State} (h : StepCase s t) (hr : turn s ≠ .reset)
include h hr

theorem mode_writtenBy (hne : t.mode ≠ s.mode) :
    configures s ∨ starts s ∨ (∃ a, transaction .tx a s) ∨ ∃ a, transaction .flush a s := by
  obtain hsame | ⟨hrow, -⟩ := stepCase_mode h
  · exact absurd hsame hne
  · exact modeTable_event hrow hr

theorem configuration_writtenBy
    (hne : t.addr ≠ s.addr ∨ t.h ≠ s.h ∨ t.w ≠ s.w ∨ t.baud ≠ s.baud ∨ t.margin ≠ s.margin) : configures s := by
  cases h with
  | reset ht => exact absurd ht hr
  | configured _ _ _ _ _ _ hop _ _ hm => exact ⟨hm, _, _, _, _, _, hop⟩
  | _ => simp at hne

theorem fb_writtenBy (hne : t.fb ≠ s.fb) :
    configures s ∨ ∃ row col v, operationTaken s = some (.setpix row col v) := by
  cases h with
  | reset ht => exact absurd ht hr
  | configured _ _ _ _ _ _ hop _ _ hm => exact .inl ⟨hm, _, _, _, _, _, hop⟩
  | setpix _ row col v hop => exact .inr ⟨row, col, v, hop⟩
  | _ => exact absurd rfl hne

theorem pkt_writtenBy (hne : t.pkt ≠ s.pkt) : starts s := by
  cases h with
  | reset ht => exact absurd ht hr
  | start ht hm hp h0 => exact ⟨ht, hm, hp, h0⟩
  | _ => exact absurd rfl hne

theorem txi_writtenBy (hne : t.txi ≠ s.txi) : starts s ∨ transaction .tx .ok s := by
  cases h with
  | reset ht => exact absurd ht hr
  | start ht hm hp h0 => exact .inl ⟨ht, hm, hp, h0⟩
  | byteAccepted _ _ ht hm _ ha => exact .inr (transaction_of_cons ht hm ha)
  | _ => exact absurd rfl hne

theorem timer_writtenBy (hne : t.timer ≠ s.timer) : starts s ∨ turn s = .clock := by
  cases h with
  | reset ht => exact absurd ht hr
  | start ht hm hp h0 => exact .inl ⟨ht, hm, hp, h0⟩
  | clock ht => exact .inr ht
  | _ => exact absurd rfl hne

theorem err_writtenBy (hne : t.err ≠ s.err) :
    configures s ∨ transaction .tx .err s ∨ transaction .flush .err s := by
  cases h with
  | reset ht => exact absurd ht hr
  | misconfigured _ _ _ _ _ _ hop _ _ hm => exact .inl ⟨hm, _, _, _, _, _, hop⟩
  | byteFailed _ _ ht hm _ ha => exact .inr (.inl (transaction_of_cons ht hm ha))
  | flushFailed _ ht hm ha => exact .inr (.inr (transaction_of_cons ht hm ha))
  | _ => exact absurd rfl hne

/-- `REFUSED` is only ever set (`10_state.md` R19). -/
theorem refused_writtenBy (hne : t.refused ≠ s.refused) : t.refused = true ∧ operationTaken s ≠ none := by
  cases h with
  | reset ht => exact absurd ht hr
  | configureRefused _ _ _ _ _ _ hop | setpixRefused _ _ _ _ hop | getpixRefused _ _ _ hop | sendRefused _ hop =>
    exact ⟨rfl, by simp [hop]⟩
  | _ => exact absurd rfl hne

theorem resp_writtenBy (hne : t.resp ≠ s.resp) :
    operationTaken s ≠ none ∨ transaction .tx .err s ∨ ∃ a, transaction .flush a s := by
  cases h with
  | reset ht => exact absurd ht hr
  | configureRefused _ _ _ _ _ _ hop | configured _ _ _ _ _ _ hop | misconfigured _ _ _ _ _ _ hop =>
    exact .inl (by simp [hop])
  | setpixRefused _ _ _ _ hop | setpix _ _ _ _ hop | getpixRefused _ _ _ hop | getpix _ _ _ hop
  | sendRefused _ hop => exact .inl (by simp [hop])
  | byteFailed _ _ ht hm _ ha => exact .inr (.inl (transaction_of_cons ht hm ha))
  | flushAccepted _ ht hm ha | flushFailed _ ht hm ha => exact .inr (.inr ⟨_, transaction_of_cons ht hm ha⟩)
  | _ => exact absurd rfl hne

theorem rdata_writtenBy (hne : t.rdata ≠ s.rdata) : ∃ row col, operationTaken s = some (.getpix row col) := by
  cases h with
  | reset ht => exact absurd ht hr
  | getpixRefused _ row col hop | getpix _ row col hop => exact ⟨row, col, hop⟩
  | _ => exact absurd rfl hne

omit hr in
theorem now_writtenBy (hne : t.now ≠ s.now) : turn s = .clock := by
  cases h with
  | clock ht => exact ht
  | _ => exact absurd rfl hne

end Written

/-- Settles O22: one lemma per register. -/
theorem registersWrittenOnlyAsListed : Obligations.RegistersWrittenOnlyAsListed := fun _ _ hs hr =>
  have h := step_cases hs
  ⟨mode_writtenBy h hr, configuration_writtenBy h hr, fb_writtenBy h hr, pkt_writtenBy h hr, txi_writtenBy h hr,
    timer_writtenBy h hr, err_writtenBy h hr, refused_writtenBy h hr, resp_writtenBy h hr, rdata_writtenBy h hr,
    now_writtenBy h⟩

/-! ### At most one item of each list -/

/-- RESET takes no operation (log 21). -/
theorem stepCase_hostOps {s t : State} (h : StepCase s t) : t.hostOps = s.hostOps ∨ ∃ p, s.hostOps = p :: t.hostOps := by
  cases h with
  | configureRefused _ _ _ _ _ _ _ hps | configured _ _ _ _ _ _ _ hps | misconfigured _ _ _ _ _ _ _ hps => exact .inr hps
  | setpixRefused _ _ _ _ _ hps | setpix _ _ _ _ _ hps | getpixRefused _ _ _ _ hps | getpix _ _ _ _ hps => exact .inr hps
  | sendRefused _ _ hps | send _ _ hps => exact .inr hps
  | _ => exact .inl rfl

theorem stepCase_turns {s t : State} (h : StepCase s t) : t.turns = s.turns.tail := by
  cases h <;> rfl

/-- What a step does at the channel: nothing, START's event, or one transaction that takes the first answer and records
its event (`20_memory.md` R50, R54). -/
inductive ChannelStep (s t : State) : Prop
  | silent : t.answers = s.answers → t.trace = s.trace → ChannelStep s t
  | started : t.answers = s.answers → t.trace = s.trace ++ [.start s.now] → ChannelStep s t
  | transacted (a : Answer) (e : TraceEvent) : s.answers = a :: t.answers → t.trace = s.trace ++ [e] →
      e.stamp = s.now → (∀ n, e ≠ .start n) → ChannelStep s t

theorem channelStep_of_stepCase {s t : State} (h : StepCase s t) : ChannelStep s t := by
  cases h with
  | start => exact .started rfl rfl
  | byteAccepted _ _ _ _ _ ha | byteFailed _ _ _ _ _ ha => exact .transacted _ _ ha rfl rfl nofun
  | flushAccepted _ _ _ ha | flushFailed _ _ _ ha => exact .transacted _ _ ha rfl rfl nofun
  | _ => exact .silent rfl rfl

/-- Settles O23: the host's list by `stepCase_hostOps`, the channel's lists by the three cases of `ChannelStep`. -/
theorem oneTransactionPerStep : Obligations.OneTransactionPerStep := by
  intro s t hs
  have h := step_cases hs
  refine ⟨stepCase_hostOps h, ?_⟩
  rcases channelStep_of_stepCase h with ⟨ha, htr⟩ | ⟨ha, htr⟩ | ⟨a, e, ha, htr, hstamp, he⟩
  · exact ⟨.inl ha, .inl htr, by simp [ha, htr]⟩
  · refine ⟨.inl ha, .inr ⟨_, htr, rfl⟩, iff_of_false (not_not.2 ha) ?_⟩
    rintro ⟨e, he, hne⟩
    have heq : e = .start s.now := by simpa using he.symm.trans htr
    exact hne _ heq
  · exact ⟨.inr ⟨a, ha⟩, .inr ⟨e, htr, hstamp⟩, iff_of_true (by simp [ha]) ⟨e, htr, he⟩⟩

end Sys2Proof.Machine
end

section
/-! PROOFS. What `TRACE` says along a run: the packet starts are paced (`42_transmission_scheduler.md` R116), the channel's
events are in order (`20_memory.md` R50), and the bytes on the wire are the packet's first `TXI` bytes (`10_state.md` R16). -/

namespace Sys2Proof.Machine

/-! ### Runs without RESET -/

/-- What every step keeps holds after a run. -/
theorem run_induction {P : State → Prop} (hstep : ∀ s t, P s → step s = .next t → P t) {k : Nat} {s t : State}
    (hs : P s) (hrun : run k s = .next t) : P t := by
  induction k generalizing s with
  | zero => cases hrun; exact hs
  | succ k ih =>
    obtain ⟨u, hu, hrest⟩ := run_succ_cases hrun
    exact ih (hstep s u hs hu) hrest

theorem turn_ne_reset_of_noReset {s : State} (h : noReset s) : turn s ≠ .reset := by
  intro ht
  obtain ⟨ts, hts⟩ := turns_of_turn ht nofun
  exact h (by simp [hts])

theorem noReset_of_stepCase {s t : State} (h : noReset s) (hst : StepCase s t) : noReset t := by
  intro hmem
  rw [stepCase_turns hst] at hmem
  exact h (List.mem_of_mem_tail hmem)

/-! ### The pacing -/

theorem startStamps_append (a b : List TraceEvent) : startStamps (a ++ b) = startStamps a ++ startStamps b := by
  induction a with
  | nil => rfl
  | cons e a ih => cases e <;> simp [startStamps, ih]

theorem spaced_append_singleton {d b : Nat} {ts : List Nat} (h : spaced d ts)
    (hlast : ∀ a, ts.getLast? = some a → a + d ≤ b) : spaced d (ts ++ [b]) := by
  fun_induction spaced d ts with
  | case1 => trivial
  | case2 a => exact ⟨hlast a rfl, trivial⟩
  | case3 a a' ts ih =>
    obtain ⟨hstep, hrest⟩ := h
    exact ⟨hstep, ih hrest fun x hx => hlast x (by simpa using hx)⟩

/-- The pacing of `paced` for the packet starts among `es` alone, which need not be all of `TRACE`: a run's own events are
paced whatever came before it. -/
def pacedOver (es : List TraceEvent) (s : State) : Prop :=
  (s.mode = .unconf → startStamps es = []) ∧ spaced (intervalTicks s) (startStamps es) ∧
    ∀ a, (startStamps es).getLast? = some a → a + intervalTicks s ≤ s.now + s.timer

theorem paced_iff_pacedOver_trace {s : State} : paced s ↔ pacedOver s.trace s := Iff.rfl

theorem pacedOver_of_no_start {es : List TraceEvent} (h : startStamps es = []) (s : State) : pacedOver es s := by
  simp [pacedOver, h, spaced]

/-- No new packet start, the same interval, and no less time until the next one. -/
theorem pacedOver_frame {es es' : List TraceEvent} {s t : State} (h : pacedOver es s)
    (hstamps : startStamps es' = startStamps es) (hm : t.mode = .unconf → s.mode = .unconf)
    (hi : intervalTicks t = intervalTicks s) (htime : s.now + s.timer ≤ t.now + t.timer) : pacedOver es' t := by
  obtain ⟨hun, hsp, hlast⟩ := h
  rw [pacedOver, hstamps, hi]
  exact ⟨fun h => hun (hm h), hsp, fun a ha => Nat.le_trans (hlast a ha) htime⟩

/-- At START `TIMER` is 0, so the interval since the last start has elapsed. -/
theorem pacedOver_start {es : List TraceEvent} {s : State} (h : pacedOver es s) (h0 : s.timer = 0) :
    pacedOver (es ++ [.start s.now]) (start s) := by
  obtain ⟨-, hsp, hlast⟩ := h
  have hi : intervalTicks (start s) = intervalTicks s := intervalTicks_congr rfl rfl rfl rfl
  have hstamps : startStamps (es ++ [.start s.now]) = startStamps es ++ [s.now] := startStamps_append ..
  rw [pacedOver, hstamps, hi]
  refine ⟨nofun, spaced_append_singleton hsp fun a ha => ?_, fun a ha => ?_⟩
  · simpa [h0] using hlast a ha
  · obtain rfl : s.now = a := by simpa using ha
    exact Nat.le_refl _

theorem pacedOver_of_stepCase {es : List TraceEvent} {s t : State} (h : pacedOver es s) (hr : turn s ≠ .reset)
    (hst : StepCase s t) : ∃ new, t.trace = s.trace ++ new ∧ pacedOver (es ++ new) t := by
  obtain ⟨hun, -, -⟩ := id h
  have hone : ∀ {e : TraceEvent}, startStamps [e] = [] → startStamps (es ++ [e]) = startStamps es := fun he => by
    rw [startStamps_append, he, List.append_nil]
  cases hst with
  | reset ht => exact absurd ht hr
  | clock => exact ⟨[], by simp, pacedOver_frame h (by simp) id rfl (by simp; omega)⟩
  | configured _ _ _ _ _ _ _ _ _ hm =>
    exact ⟨[], by simp, by rw [List.append_nil]; exact pacedOver_of_no_start (hun hm) _⟩
  | start _ _ _ h0 => exact ⟨_, rfl, pacedOver_start (s := turnTaken s) h h0⟩
  | byteAccepted b rest _ hm =>
    refine ⟨_, rfl, pacedOver_frame h (hone rfl) (fun hu => ?_) rfl (Nat.le_refl _)⟩
    have hflight := byteAccepted_mode_of_tx (s := answered rest s) hm b
    rw [hu] at hflight
    simp at hflight
  | byteFailed | flushAccepted | flushFailed => exact ⟨_, rfl, pacedOver_frame h (hone rfl) nofun rfl (Nat.le_refl _)⟩
  | misconfigured => exact ⟨[], by simp, pacedOver_frame h (by simp) nofun rfl (Nat.le_refl _)⟩
  | _ => exact ⟨[], by simp, pacedOver_frame h (by simp) id rfl (Nat.le_refl _)⟩

/-- Settles O52: `pacedOver` for the whole `TRACE`. -/
theorem stepKeepsPacing : Obligations.StepKeepsPacing := by
  intro s t _ hp hr hs
  obtain ⟨new, htrace, hnew⟩ := pacedOver_of_stepCase (paced_iff_pacedOver_trace.1 hp) hr (step_cases hs)
  rwa [← htrace] at hnew

/-- The events recorded after the trace `past` are paced, and no RESET is to come. -/
def pacedSince (past : List TraceEvent) (s : State) : Prop :=
  noReset s ∧ ∃ es, s.trace = past ++ es ∧ pacedOver es s

theorem pacedSince_of_stepCase {past : List TraceEvent} {s t : State} (h : pacedSince past s) (hst : StepCase s t) :
    pacedSince past t := by
  obtain ⟨hn, es, htrace, hp⟩ := h
  obtain ⟨new, hnew, hp'⟩ := pacedOver_of_stepCase hp (turn_ne_reset_of_noReset hn) hst
  exact ⟨noReset_of_stepCase hn hst, es ++ new, by rw [hnew, htrace, List.append_assoc], hp'⟩

/-- Settles O29: at its beginning the run has recorded no event, and every step keeps its own events paced. -/
theorem pacingGuarantee : Obligations.PacingGuarantee := by
  intro k s t events _ hn hrun htrace
  have hstart : pacedSince s.trace s := ⟨hn, [], by simp, pacedOver_of_no_start rfl s⟩
  obtain ⟨-, es, hes, -, hsp, -⟩ := run_induction (fun _ _ h hs => pacedSince_of_stepCase h (step_cases hs)) hstart hrun
  obtain rfl := List.append_cancel_left (hes.symm.trans htrace)
  exact hsp

/-! ### The order of the channel's events -/

theorem wirePhase_append_singleton (es : List TraceEvent) (e : TraceEvent) :
    wirePhase (es ++ [e]) = (wirePhase es).bind (·.after e) := by
  simp [wirePhase]

theorem eventsInOrder_of_between {s : State} (hph : wirePhase s.trace = some .between)
    (hm : s.mode ≠ .tx ∧ s.mode ≠ .flush) (he : s.err ≠ .channel) : eventsInOrder s := by
  simp [eventsInOrder, hph, hm, he]

theorem eventsInOrder_of_writing {s : State} (hph : wirePhase s.trace = some .writing)
    (hm : s.mode = .tx ∨ s.mode = .flush) (he : s.err ≠ .channel) : eventsInOrder s := by
  rcases hm with hm | hm <;> simp [eventsInOrder, hph, hm, he]

theorem eventsInOrder_of_failed {s : State} (hph : wirePhase s.trace = some .failed) (hm : s.mode = .fault) :
    eventsInOrder s := by
  simp [eventsInOrder, hph, hm]

theorem eventsInOrder_of_stepCase {s t : State} (h : BlockInv s) (ho : eventsInOrder s) (hr : turn s ≠ .reset)
    (hst : StepCase s t) : eventsInOrder t := by
  obtain ⟨-, hbetween, hwriting, -⟩ := id ho
  have hnone : s.mode ≠ .fault → s.err ≠ .channel := fun hm => by simp [err_eq_none h hm]
  cases hst with
  | reset ht => exact absurd ht hr
  | configured _ _ _ _ _ _ _ _ _ hm =>
    exact eventsInOrder_of_between (hbetween (.inl hm)) (by simp) (hnone (by simp [hm]))
  | misconfigured _ _ _ _ _ _ _ _ _ hm => exact eventsInOrder_of_between (hbetween (.inl hm)) (by simp) (by simp)
  | start _ hm =>
    refine eventsInOrder_of_writing ?_ (.inl rfl) (hnone (by simp [hm]))
    rw [start_trace, wirePhase_append_singleton, turnTaken_trace, hbetween (.inr hm)]
    rfl
  | byteAccepted b rest _ hm =>
    refine eventsInOrder_of_writing ?_ (byteAccepted_mode_of_tx hm b) (hnone (by simp [hm]))
    rw [byteAccepted_trace, wirePhase_append_singleton, answered_trace, hwriting (.inl hm)]
    rfl
  | byteFailed b rest _ hm =>
    refine eventsInOrder_of_failed ?_ rfl
    rw [byteFailed_trace, wirePhase_append_singleton, answered_trace, hwriting (.inl hm)]
    rfl
  | flushAccepted rest _ hm =>
    refine eventsInOrder_of_between ?_ (by simp) (hnone (by simp [hm]))
    rw [flushAccepted_trace, wirePhase_append_singleton, answered_trace, hwriting (.inr hm)]
    rfl
  | flushFailed rest _ hm =>
    refine eventsInOrder_of_failed ?_ rfl
    rw [flushFailed_trace, wirePhase_append_singleton, answered_trace, hwriting (.inr hm)]
    rfl
  | _ => exact ho

/-- Settles O53: a step that records an event moves the phase with `MODE` and `ERR`; any other step that moves `MODE`
happens between two packets. -/
theorem stepKeepsEventsInOrder : Obligations.StepKeepsEventsInOrder := fun _ _ h ho hr hs =>
  eventsInOrder_of_stepCase h ho hr (step_cases hs)

/-- Settles O30: with an empty `TRACE` the order holds between two packets, and every step keeps it with the
invariant. -/
theorem channelEventsInOrder : Obligations.ChannelEventsInOrder := by
  intro k s t h hn htrace hm hrun
  have hidle : s.mode ≠ .fault ∧ s.mode ≠ .tx ∧ s.mode ≠ .flush := by rcases hm with hm | hm <;> simp [hm]
  obtain ⟨hfault, hflight⟩ := hidle
  have hstart : eventsInOrder s :=
    eventsInOrder_of_between (by simp [htrace, wirePhase]) hflight (by simp [err_eq_none h hfault])
  obtain ⟨-, -, hany, hbetween, hwriting, hfailed⟩ :=
    run_induction (P := fun s => BlockInv s ∧ noReset s ∧ eventsInOrder s)
      (fun s t ⟨h, hn, ho⟩ hs => have hst := step_cases hs
        ⟨blockInv_of_stepCase h hst, noReset_of_stepCase hn hst,
          eventsInOrder_of_stepCase h ho (turn_ne_reset_of_noReset hn) hst⟩)
      ⟨h, hn, hstart⟩ hrun
  exact ⟨hany, fun hm => hbetween (.inr hm), hwriting, hfailed⟩

/-! ### The bytes on the wire -/

@[simp] theorem bytesSinceStart_append_start (es : List TraceEvent) (n : Nat) :
    bytesSinceStart (es ++ [.start n]) = [] := by simp [bytesSinceStart]

@[simp] theorem bytesSinceStart_append_byte (es : List TraceEvent) (b : Byte) (n : Nat) :
    bytesSinceStart (es ++ [.byte b n]) = bytesSinceStart es ++ [b] := by simp [bytesSinceStart]

@[simp] theorem bytesSinceStart_append_flush (es : List TraceEvent) (n : Nat) :
    bytesSinceStart (es ++ [.flush n]) = bytesSinceStart es := by simp [bytesSinceStart]

/-- Settles O27: START empties both sides, an accepted byte appends the same byte to both, and every other step that
leaves a packet in flight writes neither. -/
theorem stepKeepsPrefixOnWire : Obligations.StepKeepsPrefixOnWire := by
  intro s t _ hp hs
  cases step_cases hs with
  | start => intro _; simp
  | byteAccepted b rest _ hm hb =>
    intro _
    simp [hp (.inl hm), List.take_add_one, hb]
  | reset | configured | misconfigured | byteFailed | flushAccepted | flushFailed => rintro (hm | hm) <;> cases hm
  | _ => exact hp

/-- The one step from `FLUSH` to `IDLE` is TXFLUSH answered `ok` (`42_transmission_scheduler.md` R123). -/
theorem flushAccepted_of_flush_to_idle {s t : State} (hs : step s = .next t) (hm : s.mode = .flush)
    (ht : t.mode = .idle) : ∃ rest, t = flushAccepted (answered rest s) := by
  obtain hsame | ⟨hrow, -⟩ := stepCase_mode (step_cases hs)
  · simp [hm, ht] at hsame
  · rw [ht] at hrow
    cases hrow with
    | configured hu => simp [hm] at hu
    | flushed htr =>
      obtain ⟨-, ⟨ts, hts⟩, rest, ha⟩ := transaction_cons htr
      exact ⟨rest, Host.Outcome.next.inj (hs.symm.trans (step_flushAccepted hts hm ha))⟩

/-- Settles O28: the step is `flushAccepted`, and in `FLUSH` the first `TXI` bytes of `PKT` are the whole frame of the frame
buffer. -/
theorem okMeansWholeFrameAccepted : Obligations.OkMeansWholeFrameAccepted := by
  intro s t h hp hm hs ht
  obtain ⟨rest, rfl⟩ := flushAccepted_of_flush_to_idle hs hm ht
  have hframe : bytesSinceStart (flushAccepted (answered rest s)).trace = nextPacket s := by
    rw [flushAccepted_trace, bytesSinceStart_append_flush, answered_trace, hp (.inr hm), h.packetBuilt (.inr hm),
      h.indexInFlush hm, ← nextPacket_length, List.take_length]
  exact ⟨rfl, rfl, rfl, hframe, by rw [hframe, nextPacket_length]⟩

end Sys2Proof.Machine
end

section
/-! PROOFS. Whole transmissions (`42_transmission_scheduler.md` R115, R120, R122): the ticks of a hold, the bytes of a packet,
and the runs made of them. -/

namespace Sys2Proof.Machine

/-! ### The hold -/

/-- The state after `k` turns of the clock. -/
def ticked (k : Nat) (ts : List Turn) (s : State) : State :=
  { s with timer := s.timer - k, now := s.now + k, turns := ts }

theorem run_clock {s : State} {k : Nat} {ts : List Turn} (hts : s.turns = List.replicate k .clock ++ ts) :
    run k s = .next (ticked k ts s) := by
  induction k generalizing s with
  | zero =>
    obtain rfl : s.turns = ts := hts
    rfl
  | succ k ih =>
    rw [List.replicate_succ, List.cons_append] at hts
    rw [run_succ_of_step (step_clock hts), ih (by simp [hts])]
    have htimer : s.timer - 1 - k = s.timer - (k + 1) := by omega
    have hnow : s.now + 1 + k = s.now + (k + 1) := by omega
    simp [ticked, turnTaken, tick, htimer, hnow]

/-- One step more than a run. -/
theorem run_succ_of_run {s u : State} {k : Nat} (h : run k s = .next u) : run (k + 1) s = step u := by
  rw [run_add h, run]
  cases step u <;> rfl

theorem turnTaken_ticked (k : Nat) (a : Turn) (ts : List Turn) (s : State) :
    turnTaken (ticked k (a :: ts) s) = ticked k ts s := rfl

/-- After `k` ticks a held SEND can start exactly when `TIMER` was at most `k`. -/
theorem startEnabled_ticked {s : State} (hm : s.mode = .idle) (hp : s.sendPending = true) (k : Nat) (ts : List Turn) :
    startEnabled (ticked k ts s) = true ↔ s.timer ≤ k := by
  rw [startEnabled_iff, ticked]
  simp only [hm, hp, true_and]
  omega

/-- Settles O33: after `k` ticks the sequencer's turn is START exactly when `TIMER` has run out (`startEnabled_ticked`). -/
theorem heldSendStartsWhenTimerExpires : Obligations.HeldSendStartsWhenTimerExpires := by
  intro s k ts hm hp hk hts
  have hmode : (ticked k ts s).mode = .idle := hm
  rw [run_succ_of_run (run_clock hts), step_sequencer (s := ticked k (.sequencer :: ts) s) rfl, turnTaken_ticked,
    sequencerTurn_idle hmode]
  refine ⟨fun hlt => ?_, fun heq => ?_⟩
  · exact if_neg (mt (startEnabled_ticked hm hp k ts).1 (Nat.not_le.2 hlt))
  · exact if_pos ((startEnabled_ticked hm hp k ts).2 (Nat.le_of_eq heq.symm))

/-! ### The bytes of a packet -/

/-- The state after the first `k` bytes of the packet have been accepted: `as` and `ts` are the answers and the turns then
to come. -/
def bytesWritten (k : Nat) (as : List Answer) (ts : List Turn) (s : State) : State :=
  { s with txi := k, mode := modeAfterByte k (packetLength s) .tx,
           trace := s.trace ++ (s.pkt.take k).map (TraceEvent.byte · s.now), answers := as, turns := ts }

theorem bytesWritten_zero {s : State} (hm : s.mode = .tx) (h0 : s.txi = 0) :
    bytesWritten 0 s.answers s.turns s = s := by
  have hl : 0 ≠ packetLength s := Nat.ne_of_lt (Nat.lt_of_lt_of_le (by decide) (packetLength_ge s))
  rw [bytesWritten, modeAfterByte_other hl, List.take_zero, List.map_nil, List.append_nil, ← h0, ← hm]

theorem bytesWritten_mode {s : State} {k : Nat} (hk : k ≠ packetLength s) (as : List Answer) (ts : List Turn) :
    (bytesWritten k as ts s).mode = .tx := modeAfterByte_other hk _

/-- One byte more. -/
theorem byteAccepted_bytesWritten {s : State} {k : Nat} {b : Byte} (hk : k ≠ packetLength s) (hb : s.pkt[k]? = some b)
    (as : List Answer) (a : Turn) (ts : List Turn) (as' : List Answer) :
    byteAccepted b (answered as (bytesWritten k as' (a :: ts) s)) = bytesWritten (k + 1) as ts s := by
  have hmode := bytesWritten_mode hk as' (a :: ts)
  have htake : s.pkt.take (k + 1) = s.pkt.take k ++ [b] := by rw [List.take_add_one, hb]; rfl
  rw [byteAccepted, answered_mode, hmode, bytesWritten, bytesWritten, htake, List.map_append, ← List.append_assoc]
  rfl

/-- From the start of a packet, `k` turns answered `ok` write its first `k` bytes (`42_transmission_scheduler.md` R112). -/
theorem run_bytes {s : State} {k : Nat} {as : List Answer} {ts : List Turn} (hm : s.mode = .tx) (h0 : s.txi = 0)
    (hlen : s.pkt.length = packetLength s) (hk : k ≤ packetLength s) (ha : s.answers = List.replicate k .ok ++ as)
    (hts : s.turns = List.replicate k .sequencer ++ ts) : run k s = .next (bytesWritten k as ts s) := by
  induction k generalizing as ts with
  | zero =>
    obtain rfl : s.answers = as := ha
    obtain rfl : s.turns = ts := hts
    rw [bytesWritten_zero hm h0]
    rfl
  | succ k ih =>
    rw [List.replicate_succ', List.append_assoc, List.singleton_append] at ha hts
    have hne : k ≠ packetLength s := Nat.ne_of_lt hk
    have hb : s.pkt[k]? = some s.pkt[k] := List.getElem?_eq_getElem (by omega)
    rw [run_succ_of_run (ih (Nat.le_of_succ_le hk) ha hts),
      step_byteAccepted rfl (bytesWritten_mode hne (.ok :: as) (.sequencer :: ts)) hb rfl, byteAccepted_bytesWritten hne hb]

/-- Settles O32: the run to byte `k` (`run_bytes`), and then TXBYTE answered `err`. -/
theorem channelFailureStopsPacket : Obligations.ChannelFailureStopsPacket := by
  intro s k b as ts h hm h0 hb ha hts
  have hlen : s.pkt.length = packetLength s := by rw [h.packetBuilt (.inl hm), nextPacket_length]
  obtain ⟨hlt, -⟩ := List.getElem?_eq_some_iff.1 hb
  rw [hlen] at hlt
  rw [List.replicate_succ', List.append_assoc, List.singleton_append] at hts
  have hmode := bytesWritten_mode (Nat.ne_of_lt hlt) (.err :: as) (.sequencer :: ts)
  rw [run_succ_of_run (run_bytes hm h0 hlen (Nat.le_of_lt hlt) ha hts), step_byteFailed rfl hmode hb rfl]
  rfl

/-! ### A whole SEND -/

theorem step_sendAccepted {s : State} {ts : List Turn} {ps : List PortSignals} (hts : s.turns = .host :: ts)
    (hps : s.hostOps = sendSignals :: ps) (hs : portBusy s = false) (hm : s.mode = .idle) :
    step s = .next (sendAccepted ps s) := by
  have hm' : ¬ ((accepting ps s).mode = .unconf ∨ (accepting ps s).mode = .fault) := by simp [hm]
  rw [step_accepted hts hps hs, decodeSignals_send rfl, hostEffect, sendEffect, if_neg hm']
  rfl

/-- The state after the whole packet was accepted and flushed: the SEND is answered, and `as` and `ts` are the answers
and the turns then to come. -/
def packetSent (as : List Answer) (ts : List Turn) (s : State) : State :=
  { s with mode := .idle, txi := packetLength s, resp := .ok, sendPending := false,
           trace := s.trace ++ s.pkt.map (TraceEvent.byte · s.now) ++ [.flush s.now], answers := as, turns := ts }

theorem flushAccepted_bytesWritten {s : State} (hlen : s.pkt.length = packetLength s) (as as' : List Answer) (a : Turn)
    (ts : List Turn) :
    flushAccepted (answered as (bytesWritten (packetLength s) as' (a :: ts) s)) = packetSent as ts s := by
  rw [bytesWritten, ← hlen, List.take_length, packetSent, hlen]
  rfl

/-- From the start of a packet, `L + 1` turns answered `ok` write and flush it. -/
theorem run_packet {s : State} {as : List Answer} {ts : List Turn} (hm : s.mode = .tx) (h0 : s.txi = 0)
    (hlen : s.pkt.length = packetLength s) (ha : s.answers = List.replicate (packetLength s + 1) .ok ++ as)
    (hts : s.turns = List.replicate (packetLength s + 1) .sequencer ++ ts) :
    run (packetLength s + 1) s = .next (packetSent as ts s) := by
  rw [List.replicate_succ', List.append_assoc, List.singleton_append] at ha hts
  have hflush : (bytesWritten (packetLength s) (.ok :: as) (.sequencer :: ts) s).mode = .flush :=
    modeAfterByte_last _ _
  rw [run_succ_of_run (run_bytes hm h0 hlen (Nat.le_refl _) ha hts), step_flushAccepted rfl hflush rfl,
    flushAccepted_bytesWritten hlen]

/-- Settles O31: the port accepts the SEND, START latches the packet, and its `L` bytes are written and flushed
(`run_packet`). -/
theorem sendDeliversFrame : Obligations.SendDeliversFrame := by
  intro s ps as ts hm h0 hs hps ha hts
  obtain ⟨hfree, -, -⟩ := portBusy_eq_false.1 hs
  have hturn : (sendAccepted ps s).turns = .sequencer :: (List.replicate (packetLength s + 1) .sequencer ++ ts) := by
    simp [hts]
  have hstarts : starts (sendAccepted ps s) := ⟨turn_of_cons hturn, hm, rfl, h0⟩
  have hlen : packetLength (start (turnTaken (sendAccepted ps s))) = packetLength s :=
    packetLength_congr (by simp) (by simp)
  have hpkt : (start (turnTaken (sendAccepted ps s))).pkt = nextPacket s := by
    rw [start_pkt, nextPacket_congr (s := s)] <;> simp
  have htimer : (start (turnTaken (sendAccepted ps s))).timer = intervalTicks s := by
    rw [start_timer, intervalTicks_congr (s := s)] <;> simp
  have hpacket := run_packet (s := start (turnTaken (sendAccepted ps s))) (as := as) (ts := ts) rfl rfl
    (by rw [hpkt, hlen, nextPacket_length]) (by rw [hlen]; exact ha) (by rw [hlen]; exact congrArg List.tail hturn)
  have hsent : packetSent as ts (start (turnTaken (sendAccepted ps s))) =
      { s with mode := .idle, pkt := nextPacket s, txi := packetLength s, timer := intervalTicks s, resp := .ok,
               sendPending := false,
               trace := s.trace ++ [.start s.now] ++ (nextPacket s).map (TraceEvent.byte · s.now) ++ [.flush s.now],
               hostOps := ps, answers := as, turns := ts } := by
    simp only [packetSent, hlen, hpkt, htimer]
    simp
  rw [hlen, hsent, ← hm, ← hfree] at hpacket
  rw [run_succ_of_step (step_sendAccepted hts hps hs hm), run_succ_of_step (step_of_starts hstarts),
    List.append_cons s.trace (.start s.now)]
  exact hpacket

end Sys2Proof.Machine
end

section
/-! PROOFS. The packer's derived laws (`40_column_packer.md` R84): UNPACK inverts PACK, and PACK is injective on the grids of
one configuration. -/

namespace Sys2Proof.Machine

/-- Settles O35: the byte of the cell's column and group (`pack_getElem?`) has the cell as its bit `r mod 8`
(`colByte_getLsbD`). -/
theorem unpackInvertsPack : Obligations.UnpackInvertsPack := by
  intro fb h w r c hr hc
  have hg : r / 8 < groups h := by unfold groups; omega
  have hk : r % 8 < 8 := Nat.mod_lt _ (by decide)
  have hrow : 8 * (r / 8) + r % 8 = r := Nat.div_add_mod r 8
  have hbit := colByte_getLsbD fb h c (r / 8) hk
  rw [hrow, decide_eq_true hr, Bool.true_and] at hbit
  rw [unpack, List.getD_eq_getElem?_getD, pack_getElem? fb hc hg, Option.getD_some, ← hbit, BitVec.getLsbD,
    Nat.testBit_eq_decide_div_mod_eq]
  rfl

/-- A cell outside the grid is not listed, so it reads 0 (`10_state.md` R14). -/
theorem read_eq_unlisted {s : State} (h : BlockInv s) {k : Nat}
    (hk : ¬ (k / 65536 < s.h.toNat ∧ k % 65536 < s.w.toNat)) : Memory.read s.fb k = Memory.unlisted := by
  by_contra hr
  obtain ⟨e, he, rfl⟩ := mem_of_read hr
  exact hk (h.inGrid e he)

/-- Settles O36: cells of the grid are read off the packed bytes (`unpackInvertsPack`), all others are unlisted, and
canonical frame buffers with the same cells are the same data (`memory_ext`). -/
theorem packInjectiveOnGrids : Obligations.PackInjectiveOnGrids := by
  intro s t hs ht hh hw hpack
  refine memory_ext hs.canonical ht.canonical fun k => ?_
  by_cases hk : k / 65536 < s.h.toNat ∧ k % 65536 < s.w.toNat
  · obtain ⟨hr, hc⟩ := id hk
    rw [hh] at hr
    rw [hw] at hc
    rw [hh, hw] at hpack
    rw [← cellKey_of_div_mod k, ← unpackInvertsPack s.fb _ _ _ _ hr hc, hpack, unpackInvertsPack t.fb _ _ _ _ hr hc]
  · rw [read_eq_unlisted hs hk]
    rw [hh, hw] at hk
    rw [read_eq_unlisted ht hk]

end Sys2Proof.Machine
end

section
/-! PROOFS. The host software's loading of a frame (`44_host_software.md` R162) and its scroll (R164). -/

namespace Sys2Proof.Machine

/-! ### LOADFRAME -/

/-- The cells of an `h`-by-`w` panel, row by row (log 16). -/
def gridCells (h w : Nat) : List (Nat × Nat) := (List.range h).product (List.range w)

theorem mem_gridCells {h w r c : Nat} : (r, c) ∈ gridCells h w ↔ r < h ∧ c < w := by
  simp [gridCells]

/-- LOADFRAME's operation for one cell. -/
def setpixOf (g : PixelGrid) (cell : Nat × Nat) : Instr :=
  .setpix (BitVec.ofNat 16 cell.1) (BitVec.ofNat 16 cell.2) (gridCell g cell.1 cell.2)

theorem loadFrame_eq_map (h w : Nat) (g : PixelGrid) : loadFrame h w g = (gridCells h w).map (setpixOf g) := by
  simp [loadFrame, gridCells, List.product, List.map_flatMap, Function.comp_def, setpixOf]

/-- What that operation does when it is performed. -/
def loadCell (g : PixelGrid) (s : State) (cell : Nat × Nat) : State :=
  respond .ok (writeCell s cell.1 cell.2 (gridCell g cell.1 cell.2))

theorem exec_setpixOf {s : State} {cell : Nat × Nat} (g : PixelGrid) (hs : portBusy s = false) (hm : s.mode = .idle)
    (hr : cell.1 < s.h.toNat) (hc : cell.2 < s.w.toNat) : exec (setpixOf g cell) s = .next (loadCell g s cell) := by
  have hrow : (BitVec.ofNat 16 cell.1).toNat = cell.1 := Nat.mod_eq_of_lt (Nat.lt_trans hr s.h.isLt)
  have hcol : (BitVec.ofNat 16 cell.2).toNat = cell.2 := Nat.mod_eq_of_lt (Nat.lt_trans hc s.w.isLt)
  rw [setpixOf, exec_setpix_inRange _ hs hm (inRange_eq_true.2 (by rw [hrow, hcol]; exact ⟨hr, hc⟩)), hrow, hcol]
  rfl

theorem execAll_cons_of_next {i : Instr} {s t : State} (h : exec i s = .next t) (is : List Instr) :
    execAll (i :: is) s = execAll is t := by
  rw [execAll, h]

theorem execAll_setpixOf {s : State} (g : PixelGrid) {cells : List (Nat × Nat)} (hs : portBusy s = false)
    (hm : s.mode = .idle) (hin : ∀ cell ∈ cells, cell.1 < s.h.toNat ∧ cell.2 < s.w.toNat) :
    execAll (cells.map (setpixOf g)) s = .next (cells.foldl (loadCell g) s) := by
  induction cells generalizing s with
  | nil => rfl
  | cons cell cells ih =>
    obtain ⟨⟨hr, hc⟩, hrest⟩ := List.forall_mem_cons.1 hin
    rw [List.map_cons, execAll_cons_of_next (exec_setpixOf g hs hm hr hc), List.foldl_cons]
    exact ih hs hm hrest

/-- After the first cell, which responds `OK`, nothing but the frame buffer changes. -/
theorem foldl_loadCell_frame (g : PixelGrid) (cells : List (Nat × Nat)) {s : State} (hok : s.resp = .ok) :
    cells.foldl (loadCell g) s = { s with fb := (cells.foldl (loadCell g) s).fb } := by
  induction cells generalizing s with
  | nil => rfl
  | cons cell cells ih =>
    rw [List.foldl_cons]
    refine (ih (s := loadCell g s cell) rfl).trans ?_
    rw [loadCell, respond, ← hok]
    rfl

theorem readCell_loadCell {s : State} (g : PixelGrid) (hwf : Memory.wf s.fb) {cell : Nat × Nat} {r c : Nat}
    (hcell : cell.2 < 65536) (hc : c < 65536) :
    readCell (loadCell g s cell) r c = if (r, c) = cell then gridCell g r c else readCell s r c := by
  rw [loadCell, readCell_respond]
  split
  · rename_i heq
    subst heq
    exact readCell_writeCell_same hwf _ _ _
  · rename_i hne
    exact readCell_writeCell_other hwf _ hcell hc hne

theorem readCell_foldl_loadCell (g : PixelGrid) {cells : List (Nat × Nat)} {s : State} (hwf : Memory.wf s.fb)
    (hcells : ∀ cell ∈ cells, cell.2 < 65536) {r c : Nat} (hc : c < 65536) :
    readCell (cells.foldl (loadCell g) s) r c =
      if (r, c) ∈ cells then gridCell g r c else readCell s r c := by
  induction cells generalizing s with
  | nil => simp
  | cons cell cells ih =>
    obtain ⟨hcell, hrest⟩ := List.forall_mem_cons.1 hcells
    rw [List.foldl_cons, ih (write_wf _ _ hwf) hrest, readCell_loadCell g hwf hcell hc]
    by_cases hmem : (r, c) ∈ cells <;> simp [hmem]

/-- Settles O46: every SETPIX is performed (`execAll_setpixOf`), and a cell of the panel is among those written
(`readCell_foldl_loadCell`); a configured panel has at least one cell, so the response is `OK`. -/
theorem loadFrameLoadsGrid : Obligations.LoadFrameLoadsGrid := by
  intro s g h hm hs
  have hin : ∀ cell ∈ gridCells s.h.toNat s.w.toNat, cell.1 < s.h.toNat ∧ cell.2 < s.w.toNat := fun _ =>
    mem_gridCells.1
  have hcells : ∀ cell ∈ gridCells s.h.toNat s.w.toNat, cell.2 < 65536 := fun cell hcell =>
    Nat.lt_trans (hin cell hcell).2 s.w.isLt
  refine ⟨_, by rw [loadFrame_eq_map, execAll_setpixOf g hs hm hin], ?_, fun r c hr hc => ?_⟩
  · obtain ⟨hh0, hw0, -⟩ := h.legal (.inl hm)
    have hfirst : (0, 0) ∈ gridCells s.h.toNat s.w.toNat :=
      mem_gridCells.2 ⟨Nat.pos_of_ne_zero (BitVec.toNat_ne_iff_ne.2 hh0),
        Nat.pos_of_ne_zero (BitVec.toNat_ne_iff_ne.2 hw0)⟩
    obtain ⟨cell, cells, hcons⟩ := List.exists_cons_of_ne_nil (List.ne_nil_of_mem hfirst)
    rw [hcons]
    exact foldl_loadCell_frame g cells rfl
  · rw [readCell_foldl_loadCell g h.canonical hcells (Nat.lt_trans hc s.w.isLt), if_pos (mem_gridCells.2 ⟨hr, hc⟩)]

/-! ### The scroll -/

/-- The `w`-wide window of a padded row at an offset (`44_host_software.md` R164). -/
def rowWindow (w offset : Nat) (row : List Bool) : List Bool := ((paddedRow w row).drop offset).take w

theorem scroll_eq_map (bitmap : PixelGrid) (bw w st : Nat) :
    scroll bitmap bw w st = (scrollOffsets bw w st).map fun offset => bitmap.map (rowWindow w offset) := rfl

/-- A padded row is the row between `w` unlit columns on either side. -/
theorem paddedRow_getD (w i : Nat) (row : List Bool) :
    (paddedRow w row).getD i false = if w ≤ i ∧ i < w + row.length then row.getD (i - w) false else false := by
  rw [paddedRow]
  by_cases hleft : i < w
  · rw [if_neg (by omega), List.append_assoc, List.getD_append _ _ _ _ (by simpa using hleft), List.getD_replicate _ hleft]
  by_cases hright : i < w + row.length
  · rw [if_pos ⟨by omega, hright⟩, List.getD_append _ _ _ _ (by simpa using hright),
      List.getD_append_right _ _ _ _ (by simpa using hleft), List.length_replicate]
  · rw [if_neg (by omega), List.getD_append_right _ _ _ _ (by simpa using hright)]
    simp [List.getD_eq_getElem?_getD, List.getElem?_replicate]
    split <;> rfl

theorem rowWindow_getD {w c : Nat} (hc : c < w) (offset : Nat) (row : List Bool) :
    (rowWindow w offset row).getD c false =
      if w ≤ offset + c ∧ offset + c < w + row.length then row.getD (offset + c - w) false else false := by
  rw [← paddedRow_getD, rowWindow]
  simp [List.getElem?_take_of_lt hc]

theorem rowWindow_zero (w : Nat) (row : List Bool) : rowWindow w 0 row = List.replicate w false := by
  simp [rowWindow, paddedRow]

theorem rowWindow_last (w : Nat) (row : List Bool) :
    rowWindow w (row.length + w) row = List.replicate w false := by
  rw [rowWindow, paddedRow, List.drop_left' (by simp [Nat.add_comm])]
  simp

theorem scrollOffsets_getElem? {bw w st j : Nat} (hst : 0 < st) (hj : j * st < bw + w) :
    (scrollOffsets bw w st)[j]? = some (j * st) := by
  have hlt : j < ceilDiv (bw + w) st := by
    rw [← Nat.not_le, ceilDiv_le_iff hst, Nat.not_le, Nat.mul_comm]
    exact hj
  rw [scrollOffsets, List.getElem?_append_left (by simpa using hlt)]
  simp [hlt]

theorem scrollOffsets_getLast? (bw w st : Nat) : (scrollOffsets bw w st).getLast? = some (bw + w) := by
  simp [scrollOffsets]

theorem map_rowWindow_eq_blankGrid {bitmap : PixelGrid} {w offset : Nat}
    (h : ∀ row ∈ bitmap, rowWindow w offset row = List.replicate w false) :
    bitmap.map (rowWindow w offset) = blankGrid bitmap.length w := by
  rw [List.map_congr_left h, List.map_const', blankGrid]

/-- Settles O48: the frame at an index is the window at the offset of that index (`rowWindow_getD`); the first offset and
the last see the padding alone. -/
theorem scrollCrossesThePanel : Obligations.ScrollCrossesThePanel := by
  intro bitmap bw w st hst hw hrows
  refine ⟨by simp [scroll_eq_map, scrollOffsets, ceilDiv], fun j => scrollOffsets_getElem? hst,
    scrollOffsets_getLast? bw w st, fun j offset f hoff hf => ?_, ?_, ?_⟩
  · obtain rfl : bitmap.map (rowWindow w offset) = f := by simpa [scroll_eq_map, hoff] using hf
    refine ⟨by simp, fun r c hr hc => ?_⟩
    have hlen : bitmap[r].length = bw := hrows _ (List.getElem_mem hr)
    have hwin := rowWindow_getD hc offset bitmap[r]
    rw [hlen] at hwin
    have hrow : bitmap.getD r [] = bitmap[r] := List.getD_eq_getElem _ _ hr
    have hframe : (bitmap.map (rowWindow w offset)).getD r [] = rowWindow w offset bitmap[r] := by simp [hr]
    rw [gridCell, gridCell, hframe, hrow, hwin]
  · have h0 := scrollOffsets_getElem? (bw := bw) (w := w) (j := 0) hst (by omega)
    rw [scroll_eq_map, List.head?_map, List.head?_eq_getElem?, h0, Nat.zero_mul, Option.map_some,
      map_rowWindow_eq_blankGrid fun row _ => rowWindow_zero w row]
  · rw [scroll_eq_map, List.getLast?_map, scrollOffsets_getLast?, Option.map_some,
      map_rowWindow_eq_blankGrid fun row hrow => by rw [← hrows row hrow, rowWindow_last]]

end Sys2Proof.Machine
end

section
/-! PROOFS. The loop of driver and block (`44_host_software.md` R166 to R168; log 24): a failed SEND ends the request, and a
delivered request has flushed one packet for each of its frames. -/

namespace Sys2Proof.Machine

/-! ### What the driver makes of a step -/

theorem driverMove_of_no_response {d : HostDriver} (hr : d.report = none) (hw : d.waiting = true)
    (hg : responseGiven d.block = false) : driverMove d = d := by
  simp [driverMove, hr, hw, hg]

theorem driverMove_of_response {d : HostDriver} (hr : d.report = none) (hw : d.waiting = true)
    (hg : responseGiven d.block = true) : driverMove d = takeResponse d := by
  simp [driverMove, hr, hw, hg]

theorem driverMove_of_not_waiting {d : HostDriver} (hr : d.report = none) (hw : d.waiting = false) :
    driverMove d = proceed d := by
  simp [driverMove, hr, hw]

theorem takeResponse_ok {d : HostDriver} (h : d.block.resp = .ok) : takeResponse d = { d with waiting := false } :=
  if_pos h

theorem takeResponse_failed {d : HostDriver} (h : d.block.resp ≠ .ok) :
    takeResponse d = d.stop (.failed d.block.resp) := if_neg h

theorem seeReset_of_no_report {d : HostDriver} (h : d.report = none) :
    seeReset d = { d.stop .abandoned with block := { d.block with hostOps := [] } } := by
  simp [seeReset, h]

theorem systemStep_of_step {d : HostDriver} {t : State} (ht : step d.block = .next t) (hr : turn d.block ≠ .reset) :
    systemStep d = .next (driverMove { d with block := t }) := by
  have hr' : (nextTurn d.block).1 ≠ .reset := hr
  simp [systemStep, ht, hr']

theorem systemRun_induction {P : HostDriver → Prop} (hstep : ∀ d e, P d → systemStep d = .next e → P e) {k : Nat}
    {d e : HostDriver} (hd : P d) (hrun : systemRun k d = .next e) : P e := by
  induction k generalizing d with
  | zero => cases hrun; exact hd
  | succ k ih =>
    obtain ⟨c, hc, hrest⟩ := systemRun_succ_cases hrun
    exact ih (hstep d c hd hc) hrest

/-! ### A failed SEND -/

/-- A transaction answered `err` (`60_exceptions.md` R182). -/
theorem step_of_failed_transaction {m : Mode} {s t : State} (hm : m = .tx ∨ m = .flush) (h : transaction m .err s)
    (hs : step s = .next t) :
    t.mode = .fault ∧ t.resp = .channelError ∧ t.sendPending = false ∧ t.hostOps = s.hostOps := by
  obtain ⟨hmode, ⟨ts, hts⟩, rest, ha⟩ := transaction_cons h
  rcases hm with rfl | rfl
  · obtain ⟨b, hb⟩ := byte_of_transaction_tx h hs
    obtain rfl := Host.Outcome.next.inj ((step_byteFailed hts hmode hb ha).symm.trans hs)
    exact ⟨rfl, rfl, rfl, rfl⟩
  · obtain rfl := Host.Outcome.next.inj ((step_flushFailed hts hmode ha).symm.trans hs)
    exact ⟨rfl, rfl, rfl, rfl⟩

theorem hostOps_eq_nil_of_stepCase {s t : State} (h : StepCase s t) (ho : s.hostOps = []) : t.hostOps = [] := by
  obtain hsame | ⟨p, hp⟩ := stepCase_hostOps h
  · exact hsame.trans ho
  · simp [ho] at hp

/-- After its report the driver leaves the block alone, and with nothing at the port none is issued. -/
theorem exists_systemRun_of_report {e : HostDriver} {r : Report} (hr : e.report = some r) (h : BlockInv e.block)
    (ho : e.block.hostOps = []) (k : Nat) : ∃ t, systemRun k e = .next { e with block := t } ∧ t.hostOps = [] := by
  induction k generalizing e with
  | zero => exact ⟨e.block, rfl, ho⟩
  | succ k ih =>
    obtain ⟨u, hu⟩ := stepNeverStops e.block h
    have hcase := step_cases hu
    rw [systemRun_succ_of_step (systemStep_of_report hr hu)]
    exact ih (e := { e with block := u }) hr (blockInv_of_stepCase h hcase) (hostOps_eq_nil_of_stepCase hcase ho)

/-- Settles O50: the failure answers the SEND the driver waits for with `CHANNEL_ERROR`, which ends the request
(`takeResponse_failed`); after that the driver makes no move (`exists_systemRun_of_report`). -/
theorem failedSendStopsHost : Obligations.FailedSendStopsHost := by
  intro d m h hr hw ho hm htr
  obtain ⟨t, ht⟩ := stepNeverStops d.block h
  obtain ⟨hmode, hresp, hsend, hops⟩ := step_of_failed_transaction hm htr ht
  have hturn : turn d.block ≠ .reset := by obtain ⟨hseq, -⟩ := htr; simp [hseq]
  have hgiven : responseGiven t = true := responseGiven_iff.2 ⟨hops.trans ho, hsend⟩
  have hne : t.resp ≠ .ok := by simp [hresp]
  have hmove : driverMove { d with block := t } = ({ d with block := t } : HostDriver).stop (.failed .channelError) := by
    rw [driverMove_of_response (d := { d with block := t }) hr hw hgiven,
      takeResponse_failed (d := { d with block := t }) hne, hresp]
  refine ⟨_, (systemStep_of_step ht hturn).trans (congrArg _ hmove), hmode, rfl, rfl, rfl, rfl, fun k => ?_⟩
  obtain ⟨u, hu, hnil⟩ := exists_systemRun_of_report
    (e := ({ d with block := t } : HostDriver).stop (.failed .channelError)) rfl
    (blockInv_of_stepCase h (step_cases ht)) (hops.trans ho) k
  exact ⟨_, hu, rfl, rfl, hnil⟩

/-! ### The packets of a request -/

@[simp] theorem packetsFlushed_append_flush (es : List TraceEvent) (n : Nat) :
    packetsFlushed (es ++ [.flush n]) = packetsFlushed es + 1 := packetsFlushed_append ..

theorem not_inFlight_of_not_sendPending {s : State} (h : BlockInv s) (hp : s.sendPending = false) :
    s.mode ≠ .tx ∧ s.mode ≠ .flush := by
  obtain ⟨hflight, -⟩ := h.outstanding
  exact ⟨fun hm => by simp [hflight (.inl hm)] at hp, fun hm => by simp [hflight (.inr hm)] at hp⟩

/-- A free port with nothing to issue stays so, and no packet is flushed. -/
theorem stepCase_of_quiet {s t : State} (h : BlockInv s) (hst : StepCase s t) (ho : s.hostOps = [])
    (hp : s.sendPending = false) :
    t.hostOps = [] ∧ t.sendPending = false ∧ packetsFlushed t.trace = packetsFlushed s.trace := by
  refine ⟨hostOps_eq_nil_of_stepCase hst ho, ?_⟩
  obtain ⟨htx, hflush⟩ := not_inFlight_of_not_sendPending h hp
  cases hst with
  | reset | clock | hostWaits | sequencerWaits => exact ⟨by simp [hp], rfl⟩
  | start _ _ hp' => simp [hp'] at hp
  | byteAccepted _ _ _ hm | byteFailed _ _ _ hm => exact absurd hm htx
  | flushAccepted _ _ hm | flushFailed _ _ hm => exact absurd hm hflush
  | configureRefused _ _ _ _ _ _ _ hps | configured _ _ _ _ _ _ _ hps | misconfigured _ _ _ _ _ _ _ hps => simp [ho] at hps
  | setpixRefused _ _ _ _ _ hps | setpix _ _ _ _ _ hps | getpixRefused _ _ _ _ hps | getpix _ _ _ _ hps => simp [ho] at hps
  | sendRefused _ _ hps | send _ _ hps => simp [ho] at hps

theorem eq_decodeSignals_of_operationTaken {s : State} {i : Instr} {p : PortSignals} {ps : List PortSignals}
    (hop : operationTaken s = some i) (ho : s.hostOps = p :: ps) : decodeSignals p = i := by
  obtain ⟨-, -, p', ps', ho', rfl⟩ := operationTaken_eq_some.1 hop
  obtain ⟨rfl, -⟩ := List.cons.inj (ho.symm.trans ho')
  rfl

/-- What a step can do to an operation `p` that stands alone at a free port: leave it, answer it at once, or accept a SEND.
An answer to a SEND that comes at once is a refusal. -/
inductive IssuedStep (p : PortSignals) (t : State) : Prop
  | waits : t.hostOps = [p] → t.sendPending = false → IssuedStep p t
  | answered : t.hostOps = [] → t.sendPending = false → (t.resp = .ok → decodeSignals p ≠ .send) → IssuedStep p t
  | accepted : t.hostOps = [] → t.sendPending = true → decodeSignals p = .send → IssuedStep p t

theorem issuedStep_of_stepCase {s t : State} {p : PortSignals} (h : BlockInv s) (hst : StepCase s t)
    (hr : turn s ≠ .reset) (ho : s.hostOps = [p]) (hp : s.sendPending = false) :
    IssuedStep p t ∧ packetsFlushed t.trace = packetsFlushed s.trace := by
  obtain ⟨htx, hflush⟩ := not_inFlight_of_not_sendPending h hp
  have hrest : ∀ {ps}, (∃ p, s.hostOps = p :: ps) → ps = [] := by
    rintro ps ⟨p', hps⟩
    exact (List.cons.inj (hps.symm.trans ho)).2
  cases hst with
  | reset ht => exact absurd ht hr
  | clock | hostWaits | sequencerWaits => exact ⟨.waits ho hp, rfl⟩
  | configureRefused ps _ _ _ _ _ hop hps | configured ps _ _ _ _ _ hop hps =>
    exact ⟨.answered (hrest hps) hp fun _ => by simp [eq_decodeSignals_of_operationTaken hop ho], rfl⟩
  | misconfigured ps _ _ _ _ _ hop hps =>
    exact ⟨.answered (hrest hps) rfl fun _ => by simp [eq_decodeSignals_of_operationTaken hop ho], rfl⟩
  | setpixRefused ps _ _ _ hop hps | setpix ps _ _ _ hop hps =>
    exact ⟨.answered (hrest hps) hp fun _ => by simp [eq_decodeSignals_of_operationTaken hop ho], rfl⟩
  | getpixRefused ps _ _ hop hps | getpix ps _ _ hop hps =>
    exact ⟨.answered (hrest hps) hp fun _ => by simp [eq_decodeSignals_of_operationTaken hop ho], rfl⟩
  | sendRefused ps _ hps => exact ⟨.answered (hrest hps) hp nofun, rfl⟩
  | send ps hop hps => exact ⟨.accepted (hrest hps) rfl (eq_decodeSignals_of_operationTaken hop ho), rfl⟩
  | start _ _ hp' => simp [hp'] at hp
  | byteAccepted _ _ _ hm | byteFailed _ _ _ hm => exact absurd hm htx
  | flushAccepted _ _ hm | flushFailed _ _ hm => exact absurd hm hflush

/-- What a step can do to an outstanding SEND: nothing, complete it with its packet flushed, or fail it. -/
inductive OutstandingStep (s t : State) : Prop
  | goesOn : t.sendPending = true → packetsFlushed t.trace = packetsFlushed s.trace → OutstandingStep s t
  | completed : t.sendPending = false → t.resp = .ok → packetsFlushed t.trace = packetsFlushed s.trace + 1 →
      OutstandingStep s t
  | failed : t.sendPending = false → t.resp ≠ .ok → OutstandingStep s t

theorem outstandingStep_of_stepCase {s t : State} (hst : StepCase s t) (hr : turn s ≠ .reset)
    (hp : s.sendPending = true) : OutstandingStep s t := by
  have hbusy : portBusy s ≠ false := by simp [portBusy, hp]
  cases hst with
  | reset ht => exact absurd ht hr
  | clock | hostWaits | sequencerWaits => exact .goesOn hp rfl
  | configureRefused _ _ _ _ _ _ _ _ hb | configured _ _ _ _ _ _ _ _ hb | misconfigured _ _ _ _ _ _ _ _ hb =>
    exact absurd hb hbusy
  | setpixRefused _ _ _ _ _ _ hb | setpix _ _ _ _ _ _ hb | getpixRefused _ _ _ _ _ hb | getpix _ _ _ _ _ hb =>
    exact absurd hb hbusy
  | sendRefused _ _ _ hb | send _ _ _ hb => exact absurd hb hbusy
  | start | byteAccepted => exact .goesOn hp (packetsFlushed_append ..)
  | byteFailed | flushFailed => exact .failed rfl nofun
  | flushAccepted => exact .completed rfl rfl (packetsFlushed_append_flush ..)

/-- The operation at the port of a driver in a request, and how many packets it has yet to flush. -/
inductive AtPort (d : HostDriver) : Nat → Prop
  | nothing : d.waiting = false → d.block.hostOps = [] → d.block.sendPending = false → AtPort d 0
  | issued (p : PortSignals) : d.waiting = true → d.block.hostOps = [p] → d.block.sendPending = false →
      AtPort d ([decodeSignals p].count .send)
  | outstanding : d.waiting = true → d.block.hostOps = [] → d.block.sendPending = true → AtPort d 1

/-- A request in progress: DisplayState is still `shown` and will be `target`, and the packets flushed, the one at the port
and those of the operations and frames to come are `n` in all. -/
structure InRequest (shown target : PixelGrid) (n : Nat) (d : HostDriver) : Prop where
  noReport : d.report = none
  shownKept : d.shown = shown
  targetKept : d.target = target
  hostOnly : ∀ i ∈ d.operations, i.port = .host
  ledger : ∃ m, AtPort d m ∧ packetsFlushed d.block.trace + m + d.operations.count .send + d.frames.length = n

/-- Where a request stands. -/
inductive RequestState (shown target : PixelGrid) (n : Nat) (d : HostDriver) : Prop
  | running : InRequest shown target n d → RequestState shown target n d
  | stopped (r : Report) : d.report = some r → r ≠ .delivered → d.shown = shown → RequestState shown target n d
  | delivered : d.report = some .delivered → d.shown = target → d.block.hostOps = [] → d.block.sendPending = false →
      packetsFlushed d.block.trace = n → RequestState shown target n d

theorem count_send_sendFrame (h w : Nat) (g : PixelGrid) : (sendFrame h w g).count .send = 1 := by
  have hload : (loadFrame h w g).count .send = 0 := by
    rw [List.count_eq_zero]
    simp [loadFrame]
  rw [sendFrame, List.count_append, hload]
  rfl

/-- The driver's own action moves one operation or one frame along, or commits DisplayState when there is none left. -/
theorem requestState_proceed {shown target : PixelGrid} {n : Nat} {d : HostDriver} (h : InRequest shown target n d)
    (ho : d.block.hostOps = []) (hp : d.block.sendPending = false) (hw : d.waiting = false)
    (hn : packetsFlushed d.block.trace + d.operations.count .send + d.frames.length = n) :
    RequestState shown target n (proceed d) := by
  obtain ⟨hreport, hshown, htarget, hhost, -⟩ := h
  unfold proceed
  split
  · rename_i i is hops
    obtain ⟨hi, his⟩ := List.forall_mem_cons.1 (hops ▸ hhost)
    obtain ⟨p, hports, rfl⟩ := issue_hostOps hi d.block
    refine .running ⟨hreport, hshown, htarget, his, _, .issued p rfl hports hp, ?_⟩
    have hcount : (decodeSignals p :: is).count .send = [decodeSignals p].count .send + is.count .send :=
      List.count_append (l₁ := [decodeSignals p])
    rw [← hn, hops, hcount]
    simp only [issue_trace]
    omega
  · rename_i f fs hops hframes
    refine .running ⟨hreport, hshown, htarget, fun i => sendFrame_port, _, .nothing hw ho hp, ?_⟩
    rw [← hn, hops, hframes]
    simp [count_send_sendFrame]
    omega
  · rename_i hops hframes
    refine .delivered rfl htarget ho hp ?_
    simpa [hops, hframes] using hn

/-- A response that is not `OK` ends the request, and DisplayState is left as it was. -/
theorem requestState_takeResponse {shown target : PixelGrid} {n : Nat} {d : HostDriver} (hr : d.report = none)
    (hshown : d.shown = shown) (htarget : d.target = target) (hhost : ∀ i ∈ d.operations, i.port = .host)
    (ho : d.block.hostOps = []) (hp : d.block.sendPending = false)
    (hn : d.block.resp = .ok → packetsFlushed d.block.trace + d.operations.count .send + d.frames.length = n) :
    RequestState shown target n (takeResponse d) := by
  by_cases hok : d.block.resp = .ok
  · rw [takeResponse_ok hok]
    exact .running ⟨hr, hshown, htarget, hhost, 0, .nothing rfl ho hp, hn hok⟩
  · rw [takeResponse_failed hok]
    exact .stopped _ rfl nofun hshown

/-- One step of the block that is no RESET, and the driver's move after it, while a request is in progress. -/
theorem requestState_driverMove {shown target : PixelGrid} {n : Nat} {d : HostDriver} {t : State}
    (h : InRequest shown target n d) (hb : BlockInv d.block) (hst : StepCase d.block t) (hr : turn d.block ≠ .reset) :
    RequestState shown target n (driverMove { d with block := t }) := by
  obtain ⟨hreport, hshown, htarget, hhost, m, hport, hn⟩ := id h
  cases hport with
  | nothing hw ho hp =>
    obtain ⟨ho', hp', hflushed⟩ := stepCase_of_quiet hb hst ho hp
    rw [driverMove_of_not_waiting (d := { d with block := t }) hreport hw]
    have hn' : packetsFlushed t.trace + d.operations.count .send + d.frames.length = n := by
      rw [hflushed, ← hn, Nat.add_zero]
    exact requestState_proceed (d := { d with block := t })
      ⟨hreport, hshown, htarget, hhost, 0, .nothing hw ho' hp', hn'⟩ ho' hp' hw hn'
  | issued p hw ho hp =>
    obtain ⟨hcase, hflushed⟩ := issuedStep_of_stepCase hb hst hr ho hp
    rw [← hflushed] at hn
    cases hcase with
    | waits ho' hp' =>
      rw [driverMove_of_no_response (d := { d with block := t }) hreport hw (by simp [responseGiven, ho'])]
      exact .running ⟨hreport, hshown, htarget, hhost, _, .issued p hw ho' hp', hn⟩
    | answered ho' hp' hne =>
      rw [driverMove_of_response (d := { d with block := t }) hreport hw (responseGiven_iff.2 ⟨ho', hp'⟩)]
      refine requestState_takeResponse (d := { d with block := t }) hreport hshown htarget hhost ho' hp' fun hok => ?_
      have hcount : [decodeSignals p].count .send = 0 := by simpa [List.count_singleton] using hne hok
      rw [← hn, hcount]
      rfl
    | accepted ho' hp' hsend =>
      rw [driverMove_of_no_response (d := { d with block := t }) hreport hw (by simp [responseGiven, hp'])]
      rw [hsend] at hn
      exact .running ⟨hreport, hshown, htarget, hhost, _, .outstanding hw ho' hp', hn⟩
  | outstanding hw ho hp =>
    have ho' := hostOps_eq_nil_of_stepCase hst ho
    cases outstandingStep_of_stepCase hst hr hp with
    | goesOn hp' hflushed =>
      rw [driverMove_of_no_response (d := { d with block := t }) hreport hw (by simp [responseGiven, hp'])]
      rw [← hflushed] at hn
      exact .running ⟨hreport, hshown, htarget, hhost, _, .outstanding hw ho' hp', hn⟩
    | completed hp' _ hflushed =>
      rw [driverMove_of_response (d := { d with block := t }) hreport hw (responseGiven_iff.2 ⟨ho', hp'⟩)]
      refine requestState_takeResponse (d := { d with block := t }) hreport hshown htarget hhost ho' hp' fun _ => ?_
      rw [← hn, ← hflushed]
    | failed hp' hne =>
      rw [driverMove_of_response (d := { d with block := t }) hreport hw (responseGiven_iff.2 ⟨ho', hp'⟩)]
      exact requestState_takeResponse (d := { d with block := t }) hreport hshown htarget hhost ho' hp'
        fun hok => absurd hok hne

theorem requestState_of_systemStep {shown target : PixelGrid} {n : Nat} {d e : HostDriver}
    (h : RequestState shown target n d) (hb : BlockInv d.block) (hs : systemStep d = .next e) :
    RequestState shown target n e := by
  obtain ⟨t, ht, hmove⟩ := systemStep_cases hs
  have hst := step_cases ht
  cases h with
  | running hreq =>
    rcases hmove with ⟨-, rfl⟩ | ⟨hr, rfl⟩
    · rw [seeReset_of_no_report (d := { d with block := t }) hreq.noReport]
      exact .stopped .abandoned rfl nofun hreq.shownKept
    · exact requestState_driverMove hreq hb hst hr
  | stopped r hreport hne hshown =>
    obtain rfl := Host.Outcome.next.inj ((systemStep_of_report hreport ht).symm.trans hs)
    exact .stopped r hreport hne hshown
  | delivered hreport hshown ho hp hn =>
    obtain rfl := Host.Outcome.next.inj ((systemStep_of_report hreport ht).symm.trans hs)
    obtain ⟨ho', hp', hflushed⟩ := stepCase_of_quiet hb hst ho hp
    exact .delivered hreport hshown ho' hp' (hflushed.trans hn)

theorem block_takeResponse (d : HostDriver) : (takeResponse d).block = d.block := by
  unfold takeResponse
  split <;> rfl

/-! The driver writes no register of the block: at most it changes what is listed at the port. -/

theorem block_proceed (d : HostDriver) : ∃ ops, (proceed d).block = { d.block with hostOps := ops } := by
  unfold proceed
  split
  · exact ⟨_, rfl⟩
  · exact ⟨d.block.hostOps, rfl⟩
  · exact ⟨d.block.hostOps, rfl⟩

theorem block_driverMove (d : HostDriver) : ∃ ops, (driverMove d).block = { d.block with hostOps := ops } := by
  unfold driverMove
  split
  · exact ⟨d.block.hostOps, rfl⟩
  · split
    · exact ⟨d.block.hostOps, block_takeResponse d⟩
    · exact ⟨d.block.hostOps, rfl⟩
  · exact block_proceed d

theorem block_seeReset (d : HostDriver) : ∃ ops, (seeReset d).block = { d.block with hostOps := ops } := by
  unfold seeReset
  split
  · exact ⟨d.block.hostOps, rfl⟩
  · exact ⟨[], rfl⟩

theorem blockInv_of_systemStep {d e : HostDriver} (h : BlockInv d.block) (hs : systemStep d = .next e) :
    BlockInv e.block := by
  obtain ⟨t, ht, hmove⟩ := systemStep_cases hs
  have ht' := blockInv_of_stepCase h (step_cases ht)
  have hops : ∃ ops, e.block = { t with hostOps := ops } := by
    rcases hmove with ⟨-, rfl⟩ | ⟨-, rfl⟩
    · exact block_seeReset _
    · exact block_driverMove _
  obtain ⟨ops, he⟩ := hops
  rw [he]
  exact blockInv_frame ht' ..

/-- At its beginning a request has flushed nothing and owes a packet for each frame. -/
theorem requestState_beginDisplay {d : HostDriver} {r : Report} (hr : d.report = some r) (ho : d.block.hostOps = [])
    (hp : d.block.sendPending = false) (bitmap : PixelGrid) (bw st : Nat) (animate : Bool) :
    RequestState d.shown (displayTarget bitmap bw d.h d.w)
      (packetsFlushed d.block.trace + (displayFrames d.shown bitmap bw d.h d.w st animate).length)
      (beginDisplay bitmap bw st animate d) := by
  rw [beginDisplay, hr]
  exact .running ⟨rfl, rfl, rfl, nofun, 0, .nothing rfl ho hp, rfl⟩

theorem block_beginDisplay (bitmap : PixelGrid) (bw st : Nat) (animate : Bool) (d : HostDriver) :
    (beginDisplay bitmap bw st animate d).block = d.block := by
  unfold beginDisplay
  split <;> rfl

/-- Settles O51: every step keeps the state of the request (`requestState_of_systemStep`), whose ledger is empty when it is
delivered. -/
theorem displayStateCommittedOnlyWhenAllSent : Obligations.DisplayStateCommittedOnlyWhenAllSent := by
  intro d r bitmap bw st k animate e h hr ho hp hrun
  have hstart := requestState_beginDisplay hr ho hp bitmap bw st animate
  have hend := systemRun_induction
    (P := fun e => BlockInv e.block ∧ RequestState d.shown (displayTarget bitmap bw d.h d.w)
      (packetsFlushed d.block.trace + (displayFrames d.shown bitmap bw d.h d.w st animate).length) e)
    (fun _ _ ⟨hb, hq⟩ hs => ⟨blockInv_of_systemStep hb hs, requestState_of_systemStep hq hb hs⟩)
    ⟨block_beginDisplay bitmap bw st animate d ▸ h, hstart⟩ hrun
  obtain ⟨-, hq⟩ := hend
  cases hq with
  | running hreq => exact ⟨fun _ => hreq.shownKept, fun hdel => by simp [hreq.noReport] at hdel⟩
  | stopped r' hreport hne hshown => exact ⟨fun _ => hshown, fun hdel => by simp [hreport, hne] at hdel⟩
  | delivered hreport hshown _ _ hn => exact ⟨fun hnot => absurd hreport hnot, fun _ => ⟨hshown, hn⟩⟩

end Sys2Proof.Machine
end
